-- ==== Sys2Proof/Word.lean ====
section
/-! DEFINITION. The words of the block: bytes, 16-bit and 32-bit words, the 40-bit command word (spec/00_scope.md R7,
spec/30_encoding.md R60). -/

namespace Sys2Proof

/-- A byte: 8 bits, unsigned (R7). -/
abbrev Byte := BitVec 8

/-- A word: 16 bits, unsigned (R7). -/
abbrev Word16 := BitVec 16

/-- The baud operand and the register `BAUD` (R23). -/
abbrev Word32 := BitVec 32

/-- A command word; bit 39 is the most significant (R60). -/
abbrev Word40 := BitVec 40

end Sys2Proof
end

