-- ==== Sys2Proof/Config.lean ====
section
/-! DEFINITION. What an implementation of the block fixes (spec/00_scope.md R6), the input pins of spec/10_state.md R12, and
the free values: what the spec leaves open, as constants without a body. -/

namespace Sys2Proof

/-- `DIR_MODE` (R6, R94): one shared line mode, or also a per-device selector. -/
inductive DirMode where
  | shared
  | perDevice
deriving DecidableEq, Repr, Inhabited

/-- The parameters of R6 that a model takes as arguments. `SYNC` and `BROADCAST_ID` are fixed and stand below. -/
structure Params where
  /-- `CAP_DEPTH`: capacity in bytes of `CAP` and of `ASM`. -/
  capDepth : Nat
  /-- `WAIT_BUDGET`: consecutive empty polls the reader tolerates. -/
  waitBudget : Nat
  /-- `INST_READ`: instruction code of a read request. -/
  instRead : Byte
  /-- `INST_WRITE`: instruction code of a write request. -/
  instWrite : Byte
  /-- `DIR_MODE`. -/
  dirMode : DirMode
  /-- `SEL_W`: width in bits of the selector output. -/
  selW : Nat
  /-- `SEL`: the selector table, entry `k` for device id `k`. -/
  sel : List Byte
  /-- `SEL_ALL`: the selector value of `switchAllToTransmit`. -/
  selAll : Byte
deriving DecidableEq, Repr, Inhabited

/-- The legal ranges of R6. The table `SEL` covers the ids 0 to 254, and every selector value fits `SEL_W` bits. -/
abbrev Params.Legal (p : Params) : Prop :=
  8 ≤ p.capDepth ∧ p.capDepth ≤ 255 ∧ 1 ≤ p.waitBudget ∧ p.waitBudget ≤ 4294967295 ∧
    1 ≤ p.selW ∧ p.selW ≤ 8 ∧ p.sel.length = 255 ∧ (∀ v ∈ p.sel, v.toNat < 2 ^ p.selW) ∧ p.selAll.toNat < 2 ^ p.selW

namespace Config

/-- `SYNC`, the value of each of the two sync marker bytes: fixed (R6). -/
def sync : Byte := 0xFF

/-- `BROADCAST_ID`: fixed (R6, R55). The block gives it no special treatment. -/
def broadcastId : Byte := 0xFE

/-- The number of bytes of `TXBUF` (R25). -/
def txDepth : Nat := 9

/-- FREE VALUE. `WAIT_BUDGET` has no default (R6: `OPEN`); the reset state's budget is one more than this, so it is some value
of the legal range 1 to 2^32 - 1, and nothing says which (assumption log 2). -/
opaque waitBudgetChoice : Fin 4294967295

/-- The wait budget of the reset state: some legal value (assumption log 2). -/
def resetWaitBudget : Nat := waitBudgetChoice.val + 1

/-- The default `SEL`: `SEL(id) = id` for the ids 0 to 254 (R6). -/
def identitySel : List Byte := (List.range 255).map (BitVec.ofNat 8)

/-- The defaults of R6, with the wait budget given (R6 gives none). -/
def defaults (budget : Nat) : Params where
  capDepth := 32
  waitBudget := budget
  instRead := 0x02
  instWrite := 0x03
  dirMode := .shared
  selW := 8
  sel := identitySel
  selAll := 0xFF

end Config

/-- The input pins sampled at one rising edge of the clock (R12, R15). -/
structure Pins where
  /-- `rst`: synchronous reset. -/
  rst : Bool
  /-- `cmd_valid`: the host presents a command word. -/
  cmdValid : Bool
  /-- `cmd_word`. -/
  cmdWord : Word40
  /-- `frm_idx`: the index the host looks at; it affects only an output. -/
  frmIdx : Byte
  /-- `rx_valid`: the transport delivers one received byte. -/
  rxValid : Bool
  /-- `rx_data`: meaningful only when `rx_valid = 1`. -/
  rxData : Byte
  /-- `tx_ready`: the transport has taken the presented byte. -/
  txReady : Bool
deriving DecidableEq, Repr, Inhabited

/-- All inputs 0: nothing is presented, delivered or taken. -/
def Pins.quiet : Pins where
  rst := false
  cmdValid := false
  cmdWord := 0
  frmIdx := 0
  rxValid := false
  rxData := 0
  txReady := false

/-- FREE VALUE. The inputs of a cycle about which the input trace says nothing: the environment's inputs are free in every
cycle (R5), so nothing is known of them. The argument is the step's number (assumption log 3). -/
opaque Config.freePins : Nat → Pins

end Sys2Proof
end

