-- ==== Sys2Proof/Machine/Operands.lean ====
section
/-! DEFINITION. Operand forms: the fields of a command word (spec/30_encoding.md R60), the operation codes (R61), the operand
ranges (R65), and the byte order of 16-bit values (spec/20_memory.md R42). -/

namespace Sys2Proof.Machine

/-- `op`, bits 39:36 (R60). -/
def fieldOp (w : Word40) : BitVec 4 := w.extractLsb' 36 4

/-- `all`, bit 35 (R60). -/
def fieldAll (w : Word40) : Bool := w.getLsbD 35

/-- `rsv`, bits 34:32, reserved (R60). -/
def fieldRsv (w : Word40) : BitVec 3 := w.extractLsb' 32 3

/-- `id`, bits 31:24 (R60). -/
def fieldId (w : Word40) : Byte := w.extractLsb' 24 8

/-- `addr`, bits 23:16 (R60). -/
def fieldAddr (w : Word40) : Byte := w.extractLsb' 16 8

/-- `data`, bits 15:0 (R60). -/
def fieldData (w : Word40) : Word16 := w.extractLsb' 0 16

/-- `data[15:8]`, which must be 0 where `data` holds an 8-bit operand (R63). -/
def fieldDataHi (w : Word40) : Byte := w.extractLsb' 8 8

/-- `data[7:0]`, where an 8-bit operand stands (R63). -/
def fieldDataLo (w : Word40) : Byte := w.extractLsb' 0 8

/-- `baud`, bits 31:0, of `INIT` alone (R60). -/
def fieldBaud (w : Word40) : Word32 := w.extractLsb' 0 32

/-- A command word laid out as in R60, the reserved bits 0. -/
def commandWord (op : BitVec 4) (all : Bool) (id addr : Byte) (data : Word16) : Word40 :=
  op ++ BitVec.ofBool all ++ 0#3 ++ id ++ addr ++ data

/-- The word of `INIT`: the 32 bits 31:0 are one field (R60). -/
def initWord (baud : Word32) : Word40 := 0x1#4 ++ 0#4 ++ baud

/-- The operation code of `INIT` (R61). -/
def opInit : BitVec 4 := 0x1
/-- The operation code of `SW_TX` (R61). -/
def opSwTx : BitVec 4 := 0x2
/-- The operation code of `SW_RX` (R61). -/
def opSwRx : BitVec 4 := 0x3
/-- The operation code of `SW_ALL_TX` (R61). -/
def opSwAllTx : BitVec 4 := 0x4
/-- The operation code of `BUILD_READ` (R61). -/
def opBuildRead : BitVec 4 := 0x5
/-- The operation code of `BUILD_WRITE` (R61). -/
def opBuildWrite : BitVec 4 := 0x6
/-- The operation code of `BUILD_WRITE2` (R61). -/
def opBuildWrite2 : BitVec 4 := 0x7
/-- The operation code of `READ_PACKET` (R61). -/
def opReadPacket : BitVec 4 := 0x8
/-- The operation code of `GET_REG` (R61). -/
def opGetReg : BitVec 4 := 0x9
/-- The operation code of `SET_REG` (R61). -/
def opSetReg : BitVec 4 := 0xA
/-- The operation code of `SET_REG2` (R61). -/
def opSetReg2 : BitVec 4 := 0xB
/-- The operation code of `GET_LAST_ERROR` (R61). -/
def opGetLastError : BitVec 4 := 0xC

/-- Legal ids are `0x00` to `0xFE` (R65 (a)). -/
def idLegal (id : Byte) : Bool := id != 0xFF

/-- `GET_REG` reads 1 or 2 bytes (R65 (b)). -/
def widthLegal (width : Byte) : Bool := width == 1 || width == 2

/-- `READ_PACKET` assembles 6 to `CAP_DEPTH` bytes (R65 (c)). -/
def countLegal (p : Params) (n : Byte) : Bool := decide (6 ≤ n.toNat) && decide (n.toNat ≤ p.capDepth)

/-- `v[7:0]`, sent first (R42). -/
def lowByte (v : Word16) : Byte := v.extractLsb' 0 8

/-- `v[15:8]`, sent second (R42). -/
def highByte (v : Word16) : Byte := v.extractLsb' 8 8

/-- `zext_16(b)` (R7, R42). -/
def zext16 (b : Byte) : Word16 := b.setWidth 16

/-- `{hi, lo}`, that is `lo + 256 * hi`: the little-endian value of two bytes (R42, R152). -/
def word16 (lo hi : Byte) : Word16 := hi ++ lo

/-- The expected size of the response to a read of `width` bytes (R77): `width + 6`. -/
def responseSize (width : Byte) : Nat := width.toNat + 6

end Sys2Proof.Machine
end

