-- ==== Sys2Proof/Machine/Checksum.lean ====
section
/-! DEFINITION. The checksum validator `CSV` (spec/40_checksum.md): one pure function, used by the serializer and the framer. -/

namespace Sys2Proof.Machine

/-- `sum8(l)`: the sum of the bytes of `l`, reduced modulo 256 (R8). -/
def sum8 (l : List Byte) : Byte := BitVec.ofNat 8 (l.map BitVec.toNat).sum

/-- `Csum(l) = ~sum8(l)` (R86). -/
def csum (l : List Byte) : Byte := ~~~ (sum8 l)

/-- The acceptance test of a frame, on the bytes from the id through the checksum: their sum modulo 256 is `0xFF` (R89). -/
def frameSumOk (covered : List Byte) : Bool := sum8 covered == 0xFF

/-- The bytes of a frame that carry `id`, `inst` (or status) and `params` (or data), with the length and the checksum filled in
(R71, R72, R133). -/
def frameBytes (id inst : Byte) (params : List Byte) : List Byte :=
  let covered := id :: BitVec.ofNat 8 (params.length + 2) :: inst :: params
  Config.sync :: Config.sync :: covered ++ [csum covered]

end Sys2Proof.Machine
end

