-- ==== Sys2Proof/Machine/State.lean ====
section
/-! DEFINITION. The state of the block as plain data (spec/10_state.md R10), the reasons a step can stop, the machine right after
reset (R32). -/

namespace Sys2Proof.Machine

/-- `DIR`, the bus direction: 0 = Receive, 1 = Transmit (R10). -/
inductive Direction where
  | receive
  | transmit
deriving DecidableEq, Repr, Inhabited

/-- `PH`, the engine's micro-step selector (R18). -/
inductive Phase where
  | idle
  | swtxA
  | swtxB
  | send
  | swrxA
  | swrxB
  | read
  | check
deriving DecidableEq, Repr, Inhabited

/-- `RSP_KIND`: five values are ever produced (R162, spec/93_implementation_defined.md V4). -/
inductive Kind where
  /-- Success. -/
  | none
  /-- The wait budget ran out (R120). -/
  | timeout
  /-- The frame's sum is not `0xFF` (R124). -/
  | checksum
  /-- The reader starved after a byte was dropped (R119). -/
  | overflow
  /-- The command word was refused (R64, R65). -/
  | badCmd
deriving DecidableEq, Repr, Inhabited

/-- The three byte arrays of the block (R25). -/
inductive Buffer where
  /-- `CAP`, the capture buffer. -/
  | cap
  /-- `ASM`, the assembly buffer. -/
  | asm
  /-- `TXBUF`, the transmit buffer. -/
  | txbuf
deriving DecidableEq, Repr, Inhabited

/-- The contents of a byte array: (index, byte) pairs, indices strictly rising. An index that is not listed has no value (R32). -/
abbrev Memory := List Host.Cell

/-- What the environment does in one step of the machine. -/
inductive Event where
  /-- One clock cycle with these inputs (R15). -/
  | cycle (pins : Pins)
  /-- The bytes of one frame arrive on the line, one receive step each, no engine step between them (R16; assumption log 5). -/
  | line (bytes : List Byte)
deriving DecidableEq, Repr

/-- Why the machine stops. Each is SAFE (the model stops where the spec says nothing), and none is reachable from reset. -/
inductive Fault where
  /-- A byte of an array was read that nothing has written since reset. Raised by `readByte`. R32: a model gives the arrays no value
  after reset, and a model in which a reachable step reads such a byte has a bug. Safe. -/
  | unwritten (buffer : Buffer) (index : Nat)
  /-- An index at or beyond the end of an array was read or written. Raised by `readByte` and `writeAsm`; R26 gives the ranges.
  Safe. -/
  | outside (buffer : Buffer) (index : Nat)
  /-- The selector table has no entry for this id (R6: `SEL` is defined on the ids 0 to 254). Raised by `selFor`. Safe. -/
  | noSelector (id : Byte)
deriving DecidableEq, Repr

/-- Why an instruction is refused. No instruction is: every row of the opcode table has its meaning. -/
inductive Refusal where
  /-- The instruction has no meaning yet. Raised by no arm of `exec`. Safe. -/
  | notModelled (mnemonic : String)
deriving DecidableEq, Repr

/-- The state: first the registers and arrays of R10 in the order of its table, then what is the model's own. -/
structure State where
  /-- `DIR`. -/
  dir : Direction
  /-- `TX_EN`. -/
  txEn : Bool
  /-- `RX_EN`. -/
  rxEn : Bool
  /-- `AUX_SEL`: its low `SEL_W` bits (assumption log 10). -/
  auxSel : Byte
  /-- `BAUD`. -/
  baud : Word32
  /-- `LASTERR`. -/
  lasterr : Byte
  /-- `CAP[0 .. CAP_DEPTH-1]`. -/
  cap : Memory
  /-- `WR` (a natural number: R10, decision D36, assumption log 9). -/
  wr : Nat
  /-- `RD`. -/
  rd : Nat
  /-- `OVF`. -/
  ovf : Bool
  /-- `ASM[0 .. CAP_DEPTH-1]`. -/
  asm : Memory
  /-- `CNT`. -/
  cnt : Nat
  /-- `EXPECT`. -/
  expect : Nat
  /-- `WAITC`. -/
  waitc : Nat
  /-- `FRAME_VALID`. -/
  frameValid : Bool
  /-- `LEN_OK`. -/
  lenOk : Bool
  /-- `TXBUF[0 .. 8]`. -/
  txbuf : Memory
  /-- `TXLEN`. -/
  txlen : Nat
  /-- `TXPOS`. -/
  txpos : Nat
  /-- `PH`. -/
  ph : Phase
  /-- `CUR`. -/
  cur : Word40
  /-- `RSP_OK`. -/
  rspOk : Bool
  /-- `RSP_KIND`. -/
  rspKind : Kind
  /-- `RSP_VALUE`. -/
  rspValue : Word16
  /-- `RSP_VALID`. -/
  rspValid : Bool
  /-- `TXLOG`, the bytes handed to the transmit transport, first to last (R14; no state of the block, assumption log 12). -/
  txlog : List Byte
  /-- `RXIN`, the bytes the transport delivered, first to last (R14; no state of the block, assumption log 12). -/
  rxin : List Byte
  /-- The model's own: the parameters of R6, written by no step (assumption log 1). -/
  cfg : Params
  /-- The model's own: what the environment does next, step by step (assumption log 3). -/
  inputs : List Event
  /-- The model's own: the inputs sampled by the current step (R12, assumption log 11). -/
  pins : Pins
  /-- The model's own: how many steps were taken; it picks the free inputs past the end of `inputs` (assumption log 3). -/
  clock : Nat
deriving DecidableEq, Repr

/-- `ResetState` of R32, for a block with parameters `p` and an environment that will do `trace`. -/
def State.resetWith (p : Params) (trace : List Event) : State where
  dir := .receive
  txEn := false
  rxEn := false
  auxSel := 0
  baud := 0
  lasterr := 0
  cap := []
  wr := 0
  rd := 0
  ovf := false
  asm := []
  cnt := 0
  expect := 0
  waitc := 0
  frameValid := false
  lenOk := false
  txbuf := []
  txlen := 0
  txpos := 0
  ph := .idle
  cur := 0
  rspOk := false
  rspKind := .none
  rspValue := 0
  rspValid := false
  txlog := []
  rxin := []
  cfg := p
  inputs := trace
  pins := Pins.quiet
  clock := 0

/-- The machine right after reset (R32), its parameters at the defaults of R6, nothing said of its inputs. -/
def State.reset : State := State.resetWith (Config.defaults Config.resetWaitBudget) []

/-- The outcome of an engine step. -/
abbrev Result := Host.Outcome State Fault Refusal

end Sys2Proof.Machine
end

