-- ==== Sys2Proof/Machine/Flags.lean ====
section
/-! DEFINITION. The conditions that the one-bit flags and the reader's branches are computed from (spec/10_state.md R20,
spec/42_capture.md R105, spec/43_framer.md R116, R124, R125), and the codes of the registers that are no plain numbers. -/

namespace Sys2Proof.Machine

/-- An unconsumed byte is in `CAP` (R116). -/
def byteAvailable (s : State) : Bool := decide (s.rd < s.wr)

/-- `CAP` has room for one more byte (R105): its complement sets `OVF`. -/
def captureRoom (s : State) : Bool := decide (s.wr < s.cfg.capDepth)

/-- The wait budget is used up (R120). -/
def budgetSpent (s : State) : Bool := s.waitc == s.cfg.waitBudget

/-- `LEN_OK` of a frame with this LENGTH byte (R125): it equals `EXPECT - 4`. -/
def lengthAgrees (length : Byte) (expect : Nat) : Bool := length.toNat + 4 == expect

/-- A byte that is no frame start, at assembly position 0 (R117). -/
def notFrameStart (cnt : Nat) (b : Byte) : Bool := cnt == 0 && b != Config.sync

/-- A duplicate sync byte where the id belongs (R117). -/
def duplicateSync (cnt : Nat) (b : Byte) : Bool := cnt == 2 && b == Config.sync

/-- The code of `DIR` on the port `dir` (R10). -/
def directionCode (d : Direction) : BitVec 1 :=
  match d with
  | .receive => 0
  | .transmit => 1

/-- The code of a failure kind on `rsp_kind` (R162). -/
def kindCode (k : Kind) : BitVec 3 :=
  match k with
  | .none => 0
  | .timeout => 1
  | .checksum => 2
  | .overflow => 3
  | .badCmd => 4

end Sys2Proof.Machine
end

