-- ==== Sys2Proof/Machine/Ops.lean ====
section
/-! DEFINITION. The named operations over the byte arrays and the registers (spec/00_scope.md R8): reading and writing an array,
ending a command and failing it (the block's only exception entry, R28, R161), emptying the capture buffer, starting the reader,
building a frame, emitting a byte, capturing a byte, reset. -/

namespace Sys2Proof.Machine

/-- The canonical form: indices strictly rising. -/
abbrev Memory.wf (m : Memory) : Prop := m.Pairwise (fun x y => x.1 < y.1)

/-- The byte at index `i`, if one was written. -/
def Memory.read (m : Memory) (i : Nat) : Option Byte :=
  match m with
  | [] => none
  | (a, b) :: rest => if i = a then some b else Memory.read rest i

/-- `m` with byte `b` at index `i`. -/
def Memory.write (m : Memory) (i : Nat) (b : Byte) : Memory :=
  match m with
  | [] => [(i, b)]
  | (a, c) :: rest =>
    if i < a then (i, b) :: (a, c) :: rest
    else if i = a then (i, b) :: rest
    else (a, c) :: Memory.write rest i b

/-- `m` with the bytes `l` at the indices from `i` on (`MemWrite`, R8). -/
def Memory.writeList (m : Memory) (i : Nat) (l : List Byte) : Memory :=
  match l with
  | [] => m
  | b :: rest => Memory.writeList (Memory.write m i b) (i + 1) rest

/-- The contents of a byte array. -/
def bufferOf (buf : Buffer) (s : State) : Memory :=
  match buf with
  | .cap => s.cap
  | .asm => s.asm
  | .txbuf => s.txbuf

/-- The number of bytes of a byte array (R26). -/
def bufferSize (buf : Buffer) (s : State) : Nat :=
  match buf with
  | .cap => s.cfg.capDepth
  | .asm => s.cfg.capDepth
  | .txbuf => Config.txDepth

/-- `BUF[i]` (R8): the byte, or a fault where the array has no byte `i` or nothing has written it. -/
def readByte (buf : Buffer) (s : State) (i : Nat) : Except Fault Byte :=
  if i < bufferSize buf s then
    match Memory.read (bufferOf buf s) i with
    | some b => .ok b
    | none => .error (.unwritten buf i)
  else .error (.outside buf i)

/-- `MemRead(BUF, i, n)` (R8): the `n` bytes from index `i` on, lowest index first. -/
def readBytes (buf : Buffer) (s : State) (i : Nat) (n : Nat) : Except Fault (List Byte) :=
  match n with
  | 0 => .ok []
  | k + 1 =>
    match readByte buf s i with
    | .error f => .error f
    | .ok b =>
      match readBytes buf s (i + 1) k with
      | .error f => .error f
      | .ok l => .ok (b :: l)

/-- `ASM[i] <- b` (R8), a fault beyond the end of the array. -/
def writeAsm (s : State) (i : Nat) (b : Byte) : Except Fault State :=
  if i < bufferSize .asm s then .ok { s with asm := Memory.write s.asm i b } else .error (.outside .asm i)

/-- Goes on with what was read or written, or stops with its fault. -/
def orFault {α : Type} (x : Except Fault α) (f : α → Result) : Result :=
  match x with
  | .ok a => f a
  | .error e => .fault e

/-- Goes on from a next state; a stop stays a stop. -/
def andThen (r : Result) (f : State → State) : Result :=
  match r with
  | .next s => .next (f s)
  | .fault e => .fault e
  | .refused e => .refused e

/-- Every engine step first writes `RSP_VALID <- 0` (R30). -/
def clearStrobe (s : State) : State := { s with rspValid := false }

/-- `Complete(ok, kind, value)`, the only way a command ends (R28). -/
def complete (ok : Bool) (kind : Kind) (value : Word16) (s : State) : State :=
  { s with rspOk := ok, rspKind := kind, rspValue := value, rspValid := true, ph := .idle }

/-- A command succeeds with this value: `Complete(1, 0, value)` (R69). -/
def succeed (value : Word16) (s : State) : State := complete true .none value s

/-- `raise Fail(kind)`, the entry of every failure (R161): `Complete(0, kind, 0xFFFF)`, and nothing else is written. Nothing is saved
and there is no handler and no return (R172, R173): the block is idle and the host takes over. -/
def raiseFail (kind : Kind) (s : State) : State := complete false kind 0xFFFF s

/-- The buffer reset of a switch: `WR <- 0; RD <- 0; OVF <- 0` (R110). The contents of `CAP` are not cleared. -/
def emptyCapture (s : State) : State := { s with wr := 0, rd := 0, ovf := false }

/-- `ReaderInit(n)`, the start of every read (R115). -/
def readerInit (n : Nat) (s : State) : State :=
  { s with expect := n, cnt := 0, waitc := 0, frameValid := false, lenOk := false }

/-- The bytes `l` of a frame go to `TXBUF`, all in one step, ready to be sent from index 0 (R133). -/
def loadFrame (l : List Byte) (s : State) : State :=
  { s with txbuf := Memory.writeList s.txbuf 0 l, txlen := l.length, txpos := 0 }

/-- `BuildFrame(id, inst, params)` (R133). -/
def buildFrame (id inst : Byte) (params : List Byte) (s : State) : State := loadFrame (frameBytes id inst params) s

/-- `emit(b)`: the byte is handed to the transmit transport and joins `TXLOG` (R8, R14). -/
def emit (b : Byte) (s : State) : State := { s with txlog := s.txlog ++ [b] }

/-- A command word passed the checks: it is latched in `CUR` and the engine goes to its first phase (R29). -/
def latch (w : Word40) (first : Phase) (s : State) : State := { s with cur := w, ph := first }

/-- Acceptance (R29): a word whose operands are in range has its acceptance action; one out of range is refused with `BADCMD`, and
nothing but the response is written. -/
def acceptIf (inRange : Bool) (action : State → State) (s : State) : Result :=
  .next (if inRange then action s else raiseFail .badCmd s)

/-- `RXIN` gains a delivered byte, captured or not (R14). -/
def hear (b : Byte) (s : State) : State := { s with rxin := s.rxin ++ [b] }

/-- The capture of one arriving byte (R105): stored at `WR` if the receiver is enabled and the buffer has room; dropped with `OVF <- 1`
if the buffer is full; lost if the receiver is disabled. -/
def capture (b : Byte) (s : State) : State :=
  if s.rxEn then
    if captureRoom s then { s with cap := Memory.write s.cap s.wr b, wr := s.wr + 1 } else { s with ovf := true }
  else s

/-- `RxStep(s, rx_valid, rx_data)` (R105). -/
def rxStep (rxValid : Bool) (rxData : Byte) (s : State) : State :=
  if rxValid then capture rxData (hear rxData s) else s

/-- The bytes `l` arrive one after the other, a receive step each (R16, R48). -/
def receiveBytes (l : List Byte) (s : State) : State := l.foldl (fun t b => rxStep true b t) s

/-- A cycle with `rst = 1` (R11, R32, R186): every register takes its reset value and the arrays have no known contents; the
parameters, the environment and the traces are no registers and stay (R187, R188; assumption log 14). -/
def resetBlock (s : State) : State :=
  { State.resetWith s.cfg s.inputs with txlog := s.txlog, rxin := s.rxin, pins := s.pins, clock := s.clock }

/-- The pins are sampled at the rising edge (R12). -/
def sample (p : Pins) (s : State) : State := { s with pins := p }

/-- The environment's event of this step is used up. -/
def advance (s : State) : State := { s with inputs := s.inputs.tail, clock := s.clock + 1 }

end Sys2Proof.Machine
end

