-- ==== Sys2Proof/Machine/Phases.lean ====
section
/-! DEFINITION. The engine's phase steps (spec/10_state.md R18, R30): the four steps of a direction switch (spec/41_direction.md R95 to
R98), `SEND` (spec/44_serializer.md R140), `READ` and `CHECK` (spec/43_framer.md R116, R124), shared by the commands; and the engine
step around an acceptance. -/

namespace Sys2Proof.Machine

/-- `SEL(id)`: the selector table's entry; the table is defined on the ids 0 to 254 (R6). -/
def selLookup (p : Params) (id : Byte) : Except Fault Byte :=
  match p.sel[id.toNat]? with
  | some v => .ok v
  | none => .error (.noSelector id)

/-- `SelFor(target)` for the command in `CUR` (R94). -/
def selFor (target : Direction) (s : State) : Except Fault Byte :=
  match s.cfg.dirMode with
  | .shared => .ok s.auxSel
  | .perDevice =>
    if fieldOp s.cur = opInit then .ok 0
    else if target = .transmit ∧ (fieldOp s.cur = opSwAllTx ∨ fieldAll s.cur = true) then .ok s.cfg.selAll
    else selLookup s.cfg (fieldId s.cur)

/-- Phase `SWTX_A`: disable the receive direction (R95). -/
def swtxA (s : State) : Result :=
  orFault (selFor .transmit s) fun v => .next { s with rxEn := false, auxSel := v, ph := .swtxB }

/-- The command only switches to transmit (R96). -/
def switchOnly (w : Word40) : Bool := fieldOp w == opSwTx || fieldOp w == opSwAllTx

/-- Phase `SWTX_B`: enable the transmit direction and empty the capture buffer (R96). -/
def swtxB (s : State) : Result :=
  let t := emptyCapture { s with txEn := true, dir := .transmit }
  .next (if switchOnly s.cur then succeed 0 t else { t with ph := .send })

/-- Phase `SWRX_A`: disable the transmit direction (R97). -/
def swrxA (s : State) : Result :=
  orFault (selFor .receive s) fun v => .next { s with txEn := false, auxSel := v, ph := .swrxB }

/-- Phase `SWRX_B`: enable the receive direction and empty the capture buffer; inside `GET_REG` the reader starts in the same step
(R98, R149). -/
def swrxB (s : State) : Result :=
  let t := emptyCapture { s with rxEn := true, dir := .receive }
  .next (if fieldOp s.cur = opGetReg then { readerInit (responseSize (fieldDataLo s.cur)) t with ph := .read } else succeed 0 t)

/-- Phase `SEND` (R140): with `tx_ready = 1` the presented byte is emitted; with `tx_ready = 0` nothing changes, and there is no
timeout (R199). -/
def sendStep (s : State) : Result :=
  if s.pins.txReady then
    orFault (readByte .txbuf s s.txpos) fun b =>
      let t := { emit b s with txpos := s.txpos + 1 }
      .next (if s.txpos + 1 = s.txlen then (if fieldAll s.cur then succeed 0 t else { t with ph := .swrxA }) else t)
  else .next s

/-- `Classify(b)`, the resynchronization rule (R117): skip the byte, or store it at the assembly position. -/
def classify (b : Byte) (s : State) : Result :=
  if notFrameStart s.cnt b then .next s
  else if duplicateSync s.cnt b then .next s
  else
    orFault (writeAsm s s.cnt b) fun t =>
      .next { t with cnt := s.cnt + 1, ph := if s.cnt + 1 = s.expect then .check else s.ph }

/-- Phase `READ` (R116): consume an available byte; else fail on overflow (R119), else on a spent budget (R120), else count an empty
poll. -/
def readStep (s : State) : Result :=
  if byteAvailable s then
    orFault (readByte .cap s s.rd) fun b => classify b { s with rd := s.rd + 1, waitc := 0 }
  else if s.ovf then .next (raiseFail .overflow s)
  else if budgetSpent s then .next (raiseFail .timeout s)
  else .next { s with waitc := s.waitc + 1 }

/-- The value a `GET_REG` returns (R152): `ASM[5]` zero-extended for width 1, else `ASM[5] + 256 * ASM[6]`. -/
def registerValue (s : State) : Except Fault Word16 :=
  match readByte .asm s 5 with
  | .error f => .error f
  | .ok lo =>
    if fieldDataLo s.cur = 1 then .ok (zext16 lo)
    else
      match readByte .asm s 6 with
      | .error f => .error f
      | .ok hi => .ok (word16 lo hi)

/-- `GetRegFinish` (R152): record the status byte, return the value. `t` is the state with the writes of R124 that stand beside it. -/
def getRegFinish (s t : State) : Result :=
  orFault (readByte .asm s 4) fun status =>
    orFault (registerValue s) fun v => .next (succeed v { t with lasterr := status })

/-- Phase `CHECK` (R124): accept the frame when the bytes from the id through the checksum sum to `0xFF`; parse the length (R125). -/
def checkStep (s : State) : Result :=
  orFault (readBytes .asm s 2 (s.expect - 2)) fun covered =>
    if frameSumOk covered then
      orFault (readByte .asm s 3) fun length =>
        let t := { s with frameValid := true, lenOk := lengthAgrees length s.expect }
        if fieldOp s.cur = opGetReg then getRegFinish s t else .next (succeed 0 t)
    else .next (raiseFail .checksum s)

/-- `EngineStep` (R30) with `accept` as what happens in `IDLE`: clear the response strobe, then act by the phase. -/
def engineCycle (accept : State → Result) (s : State) : Result :=
  match s.ph with
  | .idle => accept (clearStrobe s)
  | .swtxA => swtxA (clearStrobe s)
  | .swtxB => swtxB (clearStrobe s)
  | .send => sendStep (clearStrobe s)
  | .swrxA => swrxA (clearStrobe s)
  | .swrxB => swrxB (clearStrobe s)
  | .read => readStep (clearStrobe s)
  | .check => checkStep (clearStrobe s)

end Sys2Proof.Machine
end

