-- ==== Sys2Proof/Machine/Framer.lean ====
section
/-! DEFINITION. The packet framer's command `READ_PACKET` (spec/43_framer.md). -/

namespace Sys2Proof.Machine

/-- `READ_PACKET n` (R114): `CUR <- w ; ReaderInit(n) ; PH <- READ`. The direction, `WR`, `RD` and `CAP` are left alone. -/
def execReadPacket (n : Byte) (s : State) : Result :=
  engineCycle
    (acceptIf (countLegal s.cfg n)
      (fun t => latch (commandWord opReadPacket false 0 0 (zext16 n)) .read (readerInit n.toNat t))) s

end Sys2Proof.Machine
end

