-- ==== Sys2Proof/Machine/Serializer.lean ====
section
/-! DEFINITION. The packet serializer's commands `BUILD_READ`, `BUILD_WRITE`, `BUILD_WRITE2` (spec/44_serializer.md): the frame is built
in the acceptance step, sent by the phases that follow. -/

namespace Sys2Proof.Machine

/-- The acceptance of a frame-sending command (R134): `CUR <- w ; BuildFrame(id, inst, params) ; PH <- SWTX_A`. -/
def acceptSend (w : Word40) (id inst : Byte) (params : List Byte) (s : State) : State :=
  latch w .swtxA (buildFrame id inst params s)

/-- `BUILD_READ id, addr, len` (R136): `BuildFrame(id, INST_READ, [addr, len])`. -/
def execBuildRead (id addr len : Byte) (s : State) : Result :=
  engineCycle
    (acceptIf (idLegal id)
      (acceptSend (commandWord opBuildRead false id addr (zext16 len)) id s.cfg.instRead [addr, len])) s

/-- `BUILD_WRITE id, addr, val` and `BUILD_WRITE.ALL` (R137): `BuildFrame(id, INST_WRITE, [addr, val])`. -/
def execBuildWrite (all : Bool) (id addr val : Byte) (s : State) : Result :=
  engineCycle
    (acceptIf (idLegal id)
      (acceptSend (commandWord opBuildWrite all id addr (zext16 val)) id s.cfg.instWrite [addr, val])) s

/-- `BUILD_WRITE2 id, addr, val` and `BUILD_WRITE2.ALL` (R138): `BuildFrame(id, INST_WRITE, [addr, val[7:0], val[15:8]])`. -/
def execBuildWrite2 (all : Bool) (id addr : Byte) (val : Word16) (s : State) : Result :=
  engineCycle
    (acceptIf (idLegal id)
      (acceptSend (commandWord opBuildWrite2 all id addr val) id s.cfg.instWrite [addr, lowByte val, highByte val])) s

end Sys2Proof.Machine
end

