-- ==== Sys2Proof/Machine/Registers.lean ====
section
/-! DEFINITION. Register access and initialization: `GET_REG`, `SET_REG`, `SET_REG2`, `GET_LAST_ERROR`, `INIT`
(spec/45_register_access_init.md). -/

namespace Sys2Proof.Machine

/-- `GET_REG id, addr, width` (R148): the acceptance of `BUILD_READ` with the width as the count; after the frame the step `SWRX_B`
starts the reader (R149), and `CHECK` finishes with R152. -/
def execGetReg (id addr width : Byte) (s : State) : Result :=
  engineCycle
    (acceptIf (idLegal id && widthLegal width)
      (acceptSend (commandWord opGetReg false id addr (zext16 width)) id s.cfg.instRead [addr, width])) s

/-- `SET_REG id, addr, val` (R153): in every step identical to `BUILD_WRITE` with `all = 0`. -/
def execSetReg (id addr val : Byte) (s : State) : Result :=
  engineCycle
    (acceptIf (idLegal id)
      (acceptSend (commandWord opSetReg false id addr (zext16 val)) id s.cfg.instWrite [addr, val])) s

/-- `SET_REG2 id, addr, val` (R154): in every step identical to `BUILD_WRITE2` with `all = 0`. -/
def execSetReg2 (id addr : Byte) (val : Word16) (s : State) : Result :=
  engineCycle
    (acceptIf (idLegal id)
      (acceptSend (commandWord opSetReg2 false id addr val) id s.cfg.instWrite [addr, lowByte val, highByte val])) s

/-- `GET_LAST_ERROR` (R155): the acceptance step is the whole command, `CUR <- w ; Complete(1, 0, zext_16(LASTERR))`. -/
def execGetLastError (s : State) : Result :=
  engineCycle
    (acceptIf true
      (fun t => succeed (zext16 t.lasterr) (latch (commandWord opGetLastError false 0 0 0) .idle t))) s

/-- `INIT baud` (R156): `CUR <- w ; BAUD <- w[31:0] ; CNT <- 0 ; FRAME_VALID <- 0 ; LEN_OK <- 0 ; PH <- SWRX_A`. -/
def execInit (baud : Word32) (s : State) : Result :=
  engineCycle
    (acceptIf true
      (fun t => latch (initWord baud) .swrxA { t with baud := baud, cnt := 0, frameValid := false, lenOk := false })) s

end Sys2Proof.Machine
end

