-- ==== Sys2Proof/Machine/Switching.lean ====
section
/-! DEFINITION. The commands that only switch direction: `SW_TX`, `SW_RX`, `SW_ALL_TX` (spec/41_direction.md). A meaning is the engine
step of a cycle in which the host presents the command (R29, R30): its acceptance in `IDLE`; while a command is in progress the
word is ignored and that command goes on (R192). -/

namespace Sys2Proof.Machine

/-- `SW_TX id` (R99): `CUR <- w ; PH <- SWTX_A`. -/
def execSwTx (id : Byte) (s : State) : Result :=
  engineCycle (acceptIf (idLegal id) (latch (commandWord opSwTx false id 0 0) .swtxA)) s

/-- `SW_RX id` (R100): `CUR <- w ; PH <- SWRX_A`. -/
def execSwRx (id : Byte) (s : State) : Result :=
  engineCycle (acceptIf (idLegal id) (latch (commandWord opSwRx false id 0 0) .swrxA)) s

/-- `SW_ALL_TX` (R101): `CUR <- w ; PH <- SWTX_A`. -/
def execSwAllTx (s : State) : Result :=
  engineCycle (acceptIf true (latch (commandWord opSwAllTx false 0 0 0) .swtxA)) s

end Sys2Proof.Machine
end

