-- ==== Sys2Proof/Syntax.lean ====
section
/-! DEFINITION. The syntax: one constructor per row of spec/opcode_table.json, the twelve commands of spec/30_encoding.md
R61, R62 and the four wire frames of R73 to R76. -/

namespace Sys2Proof

/-- A row of the opcode table with its operands. -/
inductive Instr where
  /-- `INIT baud` (R156). -/
  | init (baud : Word32)
  /-- `SW_TX id` (R99). -/
  | swTx (id : Byte)
  /-- `SW_RX id` (R100). -/
  | swRx (id : Byte)
  /-- `SW_ALL_TX` (R101). -/
  | swAllTx
  /-- `BUILD_READ id, addr, len` (R136). -/
  | buildRead (id addr len : Byte)
  /-- `BUILD_WRITE id, addr, val`, with `all = 1` the `.ALL` variant (R137, R66). -/
  | buildWrite (all : Bool) (id addr val : Byte)
  /-- `BUILD_WRITE2 id, addr, val`, with `all = 1` the `.ALL` variant (R138, R66). -/
  | buildWrite2 (all : Bool) (id addr : Byte) (val : Word16)
  /-- `READ_PACKET n` (R114). -/
  | readPacket (n : Byte)
  /-- `GET_REG id, addr, width` (R148). -/
  | getReg (id addr width : Byte)
  /-- `SET_REG id, addr, val` (R153). -/
  | setReg (id addr val : Byte)
  /-- `SET_REG2 id, addr, val` (R154). -/
  | setReg2 (id addr : Byte) (val : Word16)
  /-- `GET_LAST_ERROR` (R155). -/
  | getLastError
  /-- A read request on the line (R73); `chk` is the checksum byte it carries, right or wrong. -/
  | frameReadReq (id addr len chk : Byte)
  /-- A write request for a 1-byte value on the line (R74). -/
  | frameWrite1Req (id addr val chk : Byte)
  /-- A write request for a 2-byte value on the line (R75). -/
  | frameWrite2Req (id addr : Byte) (val : Word16) (chk : Byte)
  /-- A response frame on the line (R76): `length` is the LENGTH byte it carries, which the reader is not told the size by. -/
  | frameResponse (id length status : Byte) (data : List Byte) (chk : Byte)
deriving DecidableEq, Repr

/-- The row is a command of the host (format `CMD40` of the table), not a frame on the line (format `WIRE`). -/
def isCommand (i : Instr) : Bool :=
  match i with
  | .init _ => true
  | .swTx _ => true
  | .swRx _ => true
  | .swAllTx => true
  | .buildRead _ _ _ => true
  | .buildWrite _ _ _ _ => true
  | .buildWrite2 _ _ _ _ => true
  | .readPacket _ => true
  | .getReg _ _ _ => true
  | .setReg _ _ _ => true
  | .setReg2 _ _ _ => true
  | .getLastError => true
  | .frameReadReq _ _ _ _ => false
  | .frameWrite1Req _ _ _ _ => false
  | .frameWrite2Req _ _ _ _ => false
  | .frameResponse _ _ _ _ _ => false

end Sys2Proof
end

