-- ==== Sys2Proof/Decode.lean ====
section
/-! DEFINITION. The decoder of command words (spec/30_encoding.md R60 to R64) and of the bytes of a frame on the line (R71 to R76),
total, rejecting by name; the encoder of both; the mask table of R62; `decodeTableWord`. -/

namespace Sys2Proof

open Machine

/-- What is decoded: a command word, or the bytes of one frame in the order they are on the line. -/
inductive Image where
  | command (w : Word40)
  | line (bytes : List Byte)
deriving DecidableEq, Repr

/-- Why a word or a frame selects no row of the opcode table (R64, R71). -/
inductive DecodeError where
  /-- `op` is `0x0`, `0xD`, `0xE` or `0xF` (R64). -/
  | reservedOp
  /-- `rsv` is not 0 (R64). -/
  | reservedBits
  /-- `all = 1` with a command that has no such variant (R64, R66). -/
  | allBit
  /-- Another must-be-zero bit is 1 (R62, R64). -/
  | zeroBits
  /-- Fewer than 6 bytes: no frame (R72). -/
  | tooShort
  /-- The first two bytes are not the sync marker (R71). -/
  | badSync
deriving DecidableEq, Repr

/-- Answers `i` unless a bit that must be 0 is 1 (R62). -/
def mustBeZero (zero : Bool) (why : DecodeError) (i : Except DecodeError Instr) : Except DecodeError Instr :=
  if zero then i else .error why

/-- The row a command word selects, with its operands (R62, R63). The operand ranges of R65 are not part of the selection: the
acceptance step checks them after it. -/
def decodeCommand (w : Word40) : Except DecodeError Instr :=
  let id := fieldId w
  let addr := fieldAddr w
  let lo := fieldDataLo w
  let plain := mustBeZero (!fieldAll w) .allBit
  let noId := mustBeZero (id == 0) .zeroBits
  let noAddr := mustBeZero (addr == 0) .zeroBits
  let noHi := mustBeZero (fieldDataHi w == 0) .zeroBits
  let noData := mustBeZero (fieldData w == 0) .zeroBits
  mustBeZero (fieldRsv w == 0) .reservedBits <|
    if fieldOp w = opInit then plain (.ok (.init (fieldBaud w)))
    else if fieldOp w = opSwTx then plain (noAddr (noData (.ok (.swTx id))))
    else if fieldOp w = opSwRx then plain (noAddr (noData (.ok (.swRx id))))
    else if fieldOp w = opSwAllTx then plain (noId (noAddr (noData (.ok .swAllTx))))
    else if fieldOp w = opBuildRead then plain (noHi (.ok (.buildRead id addr lo)))
    else if fieldOp w = opBuildWrite then noHi (.ok (.buildWrite (fieldAll w) id addr lo))
    else if fieldOp w = opBuildWrite2 then .ok (.buildWrite2 (fieldAll w) id addr (fieldData w))
    else if fieldOp w = opReadPacket then plain (noId (noAddr (noHi (.ok (.readPacket lo)))))
    else if fieldOp w = opGetReg then plain (noHi (.ok (.getReg id addr lo)))
    else if fieldOp w = opSetReg then plain (noHi (.ok (.setReg id addr lo)))
    else if fieldOp w = opSetReg2 then plain (.ok (.setReg2 id addr (fieldData w)))
    else if fieldOp w = opGetLastError then plain (noId (noAddr (noData (.ok .getLastError))))
    else .error .reservedOp

/-- The request form, if any, that the bytes after the sync marker have: LENGTH 4 with the read or the write code (R73, R74), LENGTH
5 with the write code (R75). `rest` is what follows the byte at frame offset 4. -/
def requestOf (p : Params) (id length inst : Byte) (rest : List Byte) : Option Instr :=
  match rest with
  | [a, x, c] =>
    if length = 4 ∧ inst = p.instRead then some (.frameReadReq id a x c)
    else if length = 4 ∧ inst = p.instWrite then some (.frameWrite1Req id a x c)
    else none
  | [a, lo, hi, c] =>
    if length = 5 ∧ inst = p.instWrite then some (.frameWrite2Req id a (word16 lo hi) c) else none
  | _ => none

/-- The frame that the bytes of one frame spell. The layouts of a request and of a response coincide (R71, spec/90_conflicts.md C5):
bytes that have a request form are read as that request, all others as a response (DESIGN CHOICE, assumption log 7: the meaning is
the same either way). LENGTH and checksum are taken as they are; a reader does not refuse a frame for them (R79). -/
def decodeFrame (p : Params) (bytes : List Byte) : Except DecodeError Instr :=
  match bytes with
  | s0 :: s1 :: id :: length :: inst :: r :: rs =>
    if s0 = Config.sync ∧ s1 = Config.sync then
      match requestOf p id length inst (r :: rs) with
      | some i => .ok i
      | none => .ok (.frameResponse id length inst (r :: rs).dropLast ((r :: rs).getLastD 0))
    else .error .badSync
  | _ => .error .tooShort

/-- The decoder, total on command words and on bytes. -/
def decode (p : Params) (m : Image) : Except DecodeError Instr :=
  match m with
  | .command w => decodeCommand w
  | .line bytes => decodeFrame p bytes

/-- The bytes of `FRAME_READ_REQ` (R73). -/
def readReqBytes (p : Params) (id addr len chk : Byte) : List Byte :=
  [Config.sync, Config.sync, id, 4, p.instRead, addr, len, chk]

/-- The bytes of `FRAME_WRITE1_REQ` (R74). -/
def write1ReqBytes (p : Params) (id addr val chk : Byte) : List Byte :=
  [Config.sync, Config.sync, id, 4, p.instWrite, addr, val, chk]

/-- The bytes of `FRAME_WRITE2_REQ`, low byte first (R75). -/
def write2ReqBytes (p : Params) (id addr : Byte) (val : Word16) (chk : Byte) : List Byte :=
  [Config.sync, Config.sync, id, 5, p.instWrite, addr, lowByte val, highByte val, chk]

/-- The bytes of `FRAME_RESPONSE` (R76). -/
def responseBytes (id length status : Byte) (data : List Byte) (chk : Byte) : List Byte :=
  Config.sync :: Config.sync :: id :: length :: status :: (data ++ [chk])

/-- The encoder: the command word of R60, R62, or the bytes of R73 to R76 (the instruction codes are the parameters of `p`). -/
def encode (p : Params) (i : Instr) : Image :=
  match i with
  | .init baud => .command (initWord baud)
  | .swTx id => .command (commandWord opSwTx false id 0 0)
  | .swRx id => .command (commandWord opSwRx false id 0 0)
  | .swAllTx => .command (commandWord opSwAllTx false 0 0 0)
  | .buildRead id addr len => .command (commandWord opBuildRead false id addr (zext16 len))
  | .buildWrite all id addr val => .command (commandWord opBuildWrite all id addr (zext16 val))
  | .buildWrite2 all id addr val => .command (commandWord opBuildWrite2 all id addr val)
  | .readPacket n => .command (commandWord opReadPacket false 0 0 (zext16 n))
  | .getReg id addr width => .command (commandWord opGetReg false id addr (zext16 width))
  | .setReg id addr val => .command (commandWord opSetReg false id addr (zext16 val))
  | .setReg2 id addr val => .command (commandWord opSetReg2 false id addr val)
  | .getLastError => .command (commandWord opGetLastError false 0 0 0)
  | .frameReadReq id addr len chk => .line (readReqBytes p id addr len chk)
  | .frameWrite1Req id addr val chk => .line (write1ReqBytes p id addr val chk)
  | .frameWrite2Req id addr val chk => .line (write2ReqBytes p id addr val chk)
  | .frameResponse id length status data chk => .line (responseBytes id length status data chk)

/-- The bytes of an instruction alone tell its row: the two codes differ where a write request must be told from a read request
(R6), and a response does not happen to have a request form. -/
def toldApart (p : Params) (i : Instr) : Bool :=
  match i with
  | .frameWrite1Req _ _ _ _ => p.instRead != p.instWrite
  | .frameResponse id length status data chk => (requestOf p id length status (data ++ [chk])).isNone
  | _ => true

/-- One row of the mask table of R62: a word `w` selects it when `w AND mask = match`. -/
structure CommandRow where
  mnemonic : String
  pattern : Word40
  mask : Word40
deriving DecidableEq, Repr

/-- The mask table of R62. -/
def commandRows : List CommandRow :=
  [⟨"INIT", 0x1000000000, 0xFF00000000⟩, ⟨"SW_TX", 0x2000000000, 0xFF00FFFFFF⟩, ⟨"SW_RX", 0x3000000000, 0xFF00FFFFFF⟩,
   ⟨"SW_ALL_TX", 0x4000000000, 0xFFFFFFFFFF⟩, ⟨"BUILD_READ", 0x5000000000, 0xFF0000FF00⟩,
   ⟨"BUILD_WRITE", 0x6000000000, 0xF70000FF00⟩, ⟨"BUILD_WRITE2", 0x7000000000, 0xF700000000⟩,
   ⟨"READ_PACKET", 0x8000000000, 0xFFFFFFFF00⟩, ⟨"GET_REG", 0x9000000000, 0xFF0000FF00⟩,
   ⟨"SET_REG", 0xA000000000, 0xFF0000FF00⟩, ⟨"SET_REG2", 0xB000000000, 0xFF00000000⟩,
   ⟨"GET_LAST_ERROR", 0xC000000000, 0xFFFFFFFFFF⟩]

/-- A word selects a row (R62). -/
def CommandRow.selects (r : CommandRow) (w : Word40) : Bool := w &&& r.mask == r.pattern

/-- The mnemonic of an instruction's row of the opcode table. -/
def mnemonicOf (i : Instr) : String :=
  match i with
  | .init _ => "INIT"
  | .swTx _ => "SW_TX"
  | .swRx _ => "SW_RX"
  | .swAllTx => "SW_ALL_TX"
  | .buildRead _ _ _ => "BUILD_READ"
  | .buildWrite _ _ _ _ => "BUILD_WRITE"
  | .buildWrite2 _ _ _ _ => "BUILD_WRITE2"
  | .readPacket _ => "READ_PACKET"
  | .getReg _ _ _ => "GET_REG"
  | .setReg _ _ _ => "SET_REG"
  | .setReg2 _ _ _ => "SET_REG2"
  | .getLastError => "GET_LAST_ERROR"
  | .frameReadReq _ _ _ _ => "FRAME_READ_REQ"
  | .frameWrite1Req _ _ _ _ => "FRAME_WRITE1_REQ"
  | .frameWrite2Req _ _ _ _ => "FRAME_WRITE2_REQ"
  | .frameResponse _ _ _ _ _ => "FRAME_RESPONSE"

/-- Bytes of a number, least significant first: byte `k` is bits `8k+7 .. 8k`. -/
def bytesOf (count w : Nat) : List Byte := (List.range count).map fun k => BitVec.ofNat 8 (w >>> (8 * k))

/-- What an instruction of the opcode table with bits `w` is fetched as: up to 40 bits a command word, more bits the bytes of a frame,
the first byte of the line in the low bits. -/
def imageOf (nbits w : Nat) : Image :=
  if nbits ≤ 40 then .command (BitVec.ofNat 40 (w % (1 <<< nbits))) else .line (bytesOf (nbits / 8) w)

/-- The instruction the decoder reads from an instruction of the opcode table with bits `w`. A frame is read with the default
instruction codes of R6 (the wait budget plays no part). -/
def decodeTableWord (nbits w : Nat) : Option Instr :=
  match decode (Config.defaults 1) (imageOf nbits w) with
  | .ok i => some i
  | .error _ => none

end Sys2Proof
end

