-- ==== Sys2Proof/Machine/Wire.lean ====
section
/-! DEFINITION. The wire frames of spec/30_encoding.md R73 to R76. A frame on the line is no command of the host: what it does to the
block is what its bytes do, each of them a receive step (R105), in the order they are on the line (R41, R48). Bytes that arrive while
the receiver is disabled are lost (R106), so a frame the block itself sends never reaches its buffer. (DEDUCED from R144, R198 (b);
assumption log 6.) -/

namespace Sys2Proof.Machine

/-- `FRAME_READ_REQ` on the line (R73). -/
def execFrameReadReq (id addr len chk : Byte) (s : State) : Result :=
  .next (receiveBytes (readReqBytes s.cfg id addr len chk) s)

/-- `FRAME_WRITE1_REQ` on the line (R74). -/
def execFrameWrite1Req (id addr val chk : Byte) (s : State) : Result :=
  .next (receiveBytes (write1ReqBytes s.cfg id addr val chk) s)

/-- `FRAME_WRITE2_REQ` on the line (R75). -/
def execFrameWrite2Req (id addr : Byte) (val : Word16) (chk : Byte) (s : State) : Result :=
  .next (receiveBytes (write2ReqBytes s.cfg id addr val chk) s)

/-- `FRAME_RESPONSE` on the line (R76). -/
def execFrameResponse (id length status : Byte) (data : List Byte) (chk : Byte) (s : State) : Result :=
  .next (receiveBytes (responseBytes id length status data chk) s)

end Sys2Proof.Machine
end

