-- ==== Sys2Proof/Machine/Dispatch.lean ====
section
/-! DEFINITION. The dispatch: one arm per row of the opcode table. For a command, the engine step (spec/10_state.md R30) of a cycle in
which the host presents it; for a wire frame, its bytes arriving. -/

namespace Sys2Proof.Machine

def exec (i : Instr) (s : State) : Host.Outcome State Fault Refusal :=
  match i with
  | .init baud => Sys2Proof.Machine.execInit baud s
  | .swTx id => Sys2Proof.Machine.execSwTx id s
  | .swRx id => Sys2Proof.Machine.execSwRx id s
  | .swAllTx => Sys2Proof.Machine.execSwAllTx s
  | .buildRead id addr len => Sys2Proof.Machine.execBuildRead id addr len s
  | .buildWrite all id addr val => Sys2Proof.Machine.execBuildWrite all id addr val s
  | .buildWrite2 all id addr val => Sys2Proof.Machine.execBuildWrite2 all id addr val s
  | .readPacket n => Sys2Proof.Machine.execReadPacket n s
  | .getReg id addr width => Sys2Proof.Machine.execGetReg id addr width s
  | .setReg id addr val => Sys2Proof.Machine.execSetReg id addr val s
  | .setReg2 id addr val => Sys2Proof.Machine.execSetReg2 id addr val s
  | .getLastError => Sys2Proof.Machine.execGetLastError s
  | .frameReadReq id addr len chk => Sys2Proof.Machine.execFrameReadReq id addr len chk s
  | .frameWrite1Req id addr val chk => Sys2Proof.Machine.execFrameWrite1Req id addr val chk s
  | .frameWrite2Req id addr val chk => Sys2Proof.Machine.execFrameWrite2Req id addr val chk s
  | .frameResponse id length status data chk => Sys2Proof.Machine.execFrameResponse id length status data chk s

end Sys2Proof.Machine
end

