-- ==== Sys2Proof/Machine/Cycle.lean ====
section
/-! DEFINITION. One clock cycle (spec/10_state.md R15): reset, or the engine step and then the receive step; a frame on the line (R16);
which event the next step takes; how the bits of an instruction of the opcode table become one. -/

namespace Sys2Proof.Machine

/-- The engine step of a cycle whose pins are sampled (R30): a presented word that selects a row runs that instruction; one that selects
none is refused with `BADCMD` if the block is idle (R29, R64); with no word an idle block does nothing. -/
def engineStep (s : State) : Result :=
  if s.pins.cmdValid then
    match decodeCommand s.pins.cmdWord with
    | .ok i => exec i s
    | .error _ => engineCycle (acceptIf false id) s
  else engineCycle .next s

/-- `Cycle(s, in)` of R15 for the sampled pins. -/
def runCycle (s : State) : Result :=
  if s.pins.rst then .next (resetBlock (if s.pins.rxValid then hear s.pins.rxData s else s))
  else andThen (engineStep s) (rxStep s.pins.rxValid s.pins.rxData)

/-- The bytes of a frame arrive on the line: the frame they spell is received; bytes that spell none are received all the same (R79,
R108). -/
def runLine (bytes : List Byte) (s : State) : Result :=
  match decodeFrame s.cfg bytes with
  | .ok i => exec i s
  | .error _ => .next (receiveBytes bytes s)

/-- What the environment does in the next step: the head of the trace; past its end a cycle whose inputs are free (R5). -/
def nextEvent (s : State) : Event :=
  match s.inputs with
  | e :: _ => e
  | [] => .cycle (Config.freePins s.clock)

/-- One step of the machine on the environment's event. -/
def runEvent (e : Event) (s : State) : Result :=
  match e with
  | .cycle pins => runCycle (sample pins (advance s))
  | .line bytes => runLine bytes (advance s)

/-- The pins of a cycle in which the host presents word `w` and nothing else happens. -/
def present (w : Word40) : Pins := { Pins.quiet with cmdValid := true, cmdWord := w }

/-- The event by which an instruction comes to be run next: a cycle that presents the command word, or the frame on the line. -/
def eventOf (m : Image) : Event :=
  match m with
  | .command w => .cycle (present w)
  | .line bytes => .line bytes

/-- `s` with the image `m` as what the environment does next. A command word is accepted only in `IDLE` (R29), so a command makes the
block idle; a frame needs nothing. -/
def placeImage (m : Image) (s : State) : State :=
  match m with
  | .command _ => { s with inputs := eventOf m :: s.inputs, ph := .idle }
  | .line _ => { s with inputs := eventOf m :: s.inputs }

end Sys2Proof.Machine
end

