-- ==== Sys2Proof/Machine/Step.lean ====
section
/-! DEFINITION. The step: one event of the environment, a clock cycle of the block (spec/10_state.md R15) or a frame on the line (R16);
and where the next instruction is taken from. -/

namespace Sys2Proof.Machine

/-- One step of the machine. -/
def step (s : State) : Host.Outcome State Fault Refusal := runEvent (nextEvent s) s

/-- `s` with the instruction of the opcode table that has the bits `w` as what the next step runs: the host presents the command word,
or the frame's bytes arrive (assumption log 4). -/
def State.withFetchWord (s : State) (nbits w : Nat) : State := placeImage (imageOf nbits w) s

end Sys2Proof.Machine
end

