-- ==== Sys2Proof/Machine/Ports.lean ====
section
/-! DEFINITION. The output ports (spec/10_state.md R12, R13): functions of the registers alone, the frame window also of `frm_idx`. -/

namespace Sys2Proof.Machine

/-- The frame window (R13): `ASM[frm_idx]` below `CNT`, else `0x00`. It is `none` only where nothing has written the byte, which no
reachable state shows. -/
def frameByte (s : State) (idx : Byte) : Option Byte :=
  if idx.toNat < s.cnt then Memory.read s.asm idx.toNat else some 0x00

/-- `tx_data` (R13): the byte presented in `SEND`, else `0x00`. -/
def txData (s : State) : Option Byte := if s.ph = .send then Memory.read s.txbuf s.txpos else some 0x00

/-- The output ports in one cycle. -/
structure Outputs where
  cmdReady : Bool
  rspValid : Bool
  rspOk : Bool
  rspKind : BitVec 3
  rspValue : Word16
  frmByte : Option Byte
  frmCnt : Byte
  frmValid : Bool
  lenOk : Bool
  lastErr : Byte
  ovf : Bool
  txValid : Bool
  txData : Option Byte
  dir : BitVec 1
  dirTxEn : Bool
  dirRxEn : Bool
  auxSel : Byte
  baudCfg : Word32
deriving DecidableEq, Repr

/-- The output functions of R13. -/
def outputs (s : State) (frmIdx : Byte) : Outputs where
  cmdReady := s.ph == .idle
  rspValid := s.rspValid
  rspOk := s.rspOk
  rspKind := kindCode s.rspKind
  rspValue := s.rspValue
  frmByte := frameByte s frmIdx
  frmCnt := BitVec.ofNat 8 s.cnt
  frmValid := s.frameValid
  lenOk := s.lenOk
  lastErr := s.lasterr
  ovf := s.ovf
  txValid := s.ph == .send
  txData := txData s
  dir := directionCode s.dir
  dirTxEn := s.txEn
  dirRxEn := s.rxEn
  auxSel := s.auxSel
  baudCfg := s.baud

end Sys2Proof.Machine
end

