-- ==== Sys2Proof/WellFormed.lean ====
section
/-! DEFINITION. Well-formed instructions: the operand ranges of spec/30_encoding.md R65 for a command; for a frame on the line the
layout and the checksum of R71 to R76. A command out of range is still decoded and still has a meaning (it fails with `BADCMD`),
and a frame that is not well formed is still received: well-formedness says which terms the spec calls legal. -/

namespace Sys2Proof

open Machine

/-- What the spec asks of an instruction, check by check, for a block with parameters `p`. -/
def wellFormed (p : Params) (i : Instr) : Bool :=
  match i with
  | .init _ => true
  | .swTx id => idLegal id
  | .swRx id => idLegal id
  | .swAllTx => true
  | .buildRead id _ _ => idLegal id
  | .buildWrite _ id _ _ => idLegal id
  | .buildWrite2 _ id _ _ => idLegal id
  | .readPacket n => countLegal p n
  | .getReg id _ width => idLegal id && widthLegal width
  | .setReg id _ _ => idLegal id
  | .setReg2 id _ _ => idLegal id
  | .getLastError => true
  | .frameReadReq id addr len chk => idLegal id && chk == csum [id, 4, p.instRead, addr, len]
  | .frameWrite1Req id addr val chk => idLegal id && chk == csum [id, 4, p.instWrite, addr, val]
  | .frameWrite2Req id addr val chk =>
    idLegal id && chk == csum [id, 5, p.instWrite, addr, lowByte val, highByte val]
  | .frameResponse id length status data chk =>
    idLegal id && decide (data.length + 2 = length.toNat) && chk == csum (id :: length :: status :: data)

end Sys2Proof
end

