-- ==== Sys2Proof/Safety.lean ====
section
/-! DEFINITION. What counts as a safe state of the block: the invariants of spec/10_state.md R31, and the invariant `Inv` that
carries them from step to step; the words the statements use for traces and runs. -/

namespace Sys2Proof.Safety

open Machine

/-- R31 (a): never both directions enabled, the half-duplex invariant. -/
abbrev HalfDuplex (s : State) : Prop := ¬ (s.txEn = true ∧ s.rxEn = true)

/-- R31 (b): an enabled direction is the direction. -/
abbrev DirectionAgrees (s : State) : Prop :=
  (s.txEn = true → s.dir = .transmit) ∧ (s.rxEn = true → s.dir = .receive)

/-- R31 (c): a byte is handed over only with the transmit direction enabled. -/
abbrev SendsInTransmit (s : State) : Prop := s.ph = .send → s.txEn = true

/-- R31 (d): `WR` changes by capture only when the receiver is enabled, hence only in Receive. -/
abbrev CapturesInReceive (s : State) : Prop :=
  ∀ b, (capture b s).wr ≠ s.wr → s.rxEn = true ∧ s.dir = .receive

/-- R31 (e). -/
abbrev PositionsInRange (s : State) : Prop := s.rd ≤ s.wr ∧ s.wr ≤ s.cfg.capDepth

/-- R31 (f). -/
abbrev CountInRange (s : State) : Prop :=
  ((s.ph = .read ∨ s.ph = .check) → s.cnt ≤ s.expect) ∧ (s.ph = .check → s.cnt = s.expect)

/-- R31 (g). -/
abbrev SendPositionInRange (s : State) : Prop := s.ph = .send → s.txpos < s.txlen

/-- R31 (h). -/
abbrev OverflowMeansFull (s : State) : Prop := s.ovf = true → s.wr = s.cfg.capDepth

/-- The eight clauses of R31. -/
structure Safe (s : State) : Prop where
  halfDuplex : HalfDuplex s
  directionAgrees : DirectionAgrees s
  sendsInTransmit : SendsInTransmit s
  capturesInReceive : CapturesInReceive s
  positionsInRange : PositionsInRange s
  countInRange : CountInRange s
  sendPositionInRange : SendPositionInRange s
  overflowMeansFull : OverflowMeansFull s

/-- Every byte of an array at an index below `n` was written. -/
abbrev WrittenBelow (m : Memory) (n : Nat) : Prop := ∀ i, i < n → (Memory.read m i).isSome = true

/-- No index of an array is at or beyond `n`. -/
abbrev IndicesBelow (m : Memory) (n : Nat) : Prop := ∀ c ∈ m, c.1 < n

/-- A frame-sending command is on its way to `SEND` or in it: its frame stands in `TXBUF`. -/
abbrev FramePending (s : State) : Prop :=
  ((s.ph = .swtxA ∨ s.ph = .swtxB) ∧ switchOnly s.cur = false) ∨ s.ph = .send

/-- The bytes of an array at the indices `2 .. n-1`, as far as they were written. -/
def windowBytes (m : Memory) (n : Nat) : List Byte := (List.range (n - 2)).filterMap fun k => Memory.read m (2 + k)

/-- The invariant that every step keeps: the clauses of R31 that a step needs, the canonical form of the arrays, and what stands
between the phases of one command. -/
structure Inv (s : State) : Prop where
  /-- The parameters are in the ranges of R6. -/
  legal : s.cfg.Legal
  halfDuplex : HalfDuplex s
  directionAgrees : DirectionAgrees s
  sendsInTransmit : SendsInTransmit s
  positionsInRange : PositionsInRange s
  countInRange : CountInRange s
  sendPositionInRange : SendPositionInRange s
  overflowMeansFull : OverflowMeansFull s
  /-- Between the two steps of a switch the direction being left is off (R95, R97). -/
  betweenSteps : (s.ph = .swtxB → s.rxEn = false) ∧ (s.ph = .swrxB → s.txEn = false)
  /-- The arrays keep their canonical form. -/
  arraysWf : Memory.wf s.cap ∧ Memory.wf s.asm ∧ Memory.wf s.txbuf
  /-- No array holds a byte beyond its end (R26, R107). -/
  arraysBounded : IndicesBelow s.cap s.cfg.capDepth ∧ IndicesBelow s.asm s.cfg.capDepth ∧ IndicesBelow s.txbuf Config.txDepth
  /-- Every byte that a rule reads was written after the reset (R32). -/
  captured : WrittenBelow s.cap s.wr
  assembled : WrittenBelow s.asm s.cnt ∧ s.cnt ≤ s.cfg.capDepth
  framed : FramePending s → (s.txlen = 8 ∨ s.txlen = 9) ∧ WrittenBelow s.txbuf s.txlen
  /-- The pending frame satisfies the checksum invariant (R133, R143). -/
  frameSummed : FramePending s → frameSumOk (windowBytes s.txbuf s.txlen) = true
  frameFresh : ((s.ph = .swtxA ∨ s.ph = .swtxB) ∧ switchOnly s.cur = false) → s.txpos = 0
  /-- A read has a legal size, and in `READ` the frame is not complete (R65, R117). -/
  reading : (s.ph = .read ∨ s.ph = .check) → 6 ≤ s.expect ∧ s.expect ≤ s.cfg.capDepth
  incomplete : s.ph = .read → s.cnt < s.expect
  /-- A running command passed the checks of its acceptance (R29, R65). -/
  inRange : s.ph ≠ .idle → (fieldOp s.cur = opInit ∨ idLegal (fieldId s.cur) = true) ∧
    (fieldOp s.cur = opGetReg → widthLegal (fieldDataLo s.cur) = true)
  /-- The reader of a `GET_REG` assembles `width + 6` bytes (R149). -/
  responseExpected : (s.ph = .read ∨ s.ph = .check) → fieldOp s.cur = opGetReg →
    s.expect = responseSize (fieldDataLo s.cur)
  /-- The empty polls never exceed the budget (R177). -/
  waitBounded : s.waitc ≤ s.cfg.waitBudget
  /-- The selector fits its port, and stays 0 in `SHARED` mode (R94, D26). -/
  selectorFits : s.auxSel.toNat < 2 ^ s.cfg.selW
  selectorShared : s.cfg.dirMode = .shared → s.auxSel = 0
  /-- What resynchronization leaves: `ASM[0] = 0xFF`, `ASM[2] != 0xFF` (R118). -/
  synced : (0 < s.cnt → Memory.read s.asm 0 = some 0xFF) ∧ (2 < s.cnt → Memory.read s.asm 2 ≠ some 0xFF)
  /-- `FRAME_VALID` says that the window holds a whole frame with a correct sum (R124, R127), and `LEN_OK` needs it. -/
  validFrame : s.frameValid = true → s.cnt = s.expect ∧ 6 ≤ s.cnt ∧ frameSumOk (windowBytes s.asm s.cnt) = true
  lengthFlag : s.lenOk = true → s.frameValid = true
  readerStarted : (s.ph = .read ∨ s.ph = .check) → s.frameValid = false ∧ s.lenOk = false
  /-- A response stands only while the block is idle, and its kind and value are those of its outcome (R28, R70). -/
  response : s.rspValid = true → s.ph = .idle ∧ (s.rspOk = true ↔ s.rspKind = .none) ∧
    (s.rspOk = false → s.rspValue = 0xFFFF)

/-- `k` steps, up to the first stop. -/
def runSteps (k : Nat) (s : State) : Result :=
  match k with
  | 0 => .next s
  | k + 1 =>
    match step s with
    | .next t => runSteps k t
    | .fault f => .fault f
    | .refused r => .refused r

/-- An input trace of clock cycles. -/
def cycles (l : List Pins) : List Event := l.map .cycle

/-- The bytes that the transport delivers in these cycles. -/
def delivered (l : List Pins) : List Byte := (l.filter (·.rxValid)).map (·.rxData)

/-- The number of these cycles in which the transport is ready to take a byte. -/
def readyCount (l : List Pins) : Nat := (l.filter (·.txReady)).length

/-- No cycle of these resets the block. -/
abbrev NoReset (l : List Pins) : Prop := ∀ p ∈ l, p.rst = false

/-- Pins of a cycle without reset in which no byte arrives. -/
abbrev SilentPins (p : Pins) : Prop := p.rst = false ∧ p.rxValid = false

/-- Two states are the same but for `CUR`. -/
def SameButCur (s t : State) : Prop := { s with cur := 0 } = { t with cur := 0 }

/-- Two outcomes are the same but for `CUR`: two states that are, or one stop. -/
def SameOutcomeButCur (a b : Result) : Prop :=
  match a, b with
  | .next s, .next t => SameButCur s t
  | .fault f, .fault g => f = g
  | .refused r, .refused q => r = q
  | _, _ => False

end Sys2Proof.Safety
end

