-- ==== Sys2Proof/Certificates/Slice0/Obligations.lean ====
section
/-! DEFINITION. The statements for the provers, and the words they are written in. The words spell out what the spec says (the bytes of
a frame, the bits of a command word, the operand ranges, the selector of a switch) without the model's own operations, so that a
statement says something about them. -/

namespace Sys2Proof.Words

open Machine Safety

/-- `m` is `m0` with the bytes `l` from index `i` on, and every other byte as it was. -/
def Stored (m m0 : Memory) (i : Nat) (l : List Byte) : Prop :=
  ∀ k, Memory.read m k = if k < i then Memory.read m0 k else if k < i + l.length then l[k - i]? else Memory.read m0 k

/-- The sum of bytes as natural numbers. -/
def total (l : List Byte) : Nat := (l.map BitVec.toNat).sum

/-- The 8 bytes of a request with two params (R73, R74). -/
def request8 (id inst a b : Byte) : List Byte := [0xFF, 0xFF, id, 4, inst, a, b, ~~~(id + 4 + inst + a + b)]

/-- The 9 bytes of a request with three params (R75). -/
def request9 (id inst a lo hi : Byte) : List Byte := [0xFF, 0xFF, id, 5, inst, a, lo, hi, ~~~(id + 5 + inst + a + lo + hi)]

/-- The bits 7:0 and 15:8 of a value. -/
def low (v : Word16) : Byte := v.extractLsb' 0 8
def high (v : Word16) : Byte := v.extractLsb' 8 8

/-- The frame a command sends, the empty list for one that sends none (R136, R137, R138, R148, R153, R154). -/
def frameOf (p : Params) (i : Instr) : List Byte :=
  match i with
  | .buildRead id addr len => request8 id p.instRead addr len
  | .buildWrite _ id addr val => request8 id p.instWrite addr val
  | .buildWrite2 _ id addr val => request9 id p.instWrite addr (low val) (high val)
  | .getReg id addr width => request8 id p.instRead addr width
  | .setReg id addr val => request8 id p.instWrite addr val
  | .setReg2 id addr val => request9 id p.instWrite addr (low val) (high val)
  | _ => []

/-- The word of a command, bit 39 first: `op`, `all`, `rsv`, `id`, `addr`, `data` (R60, R62). -/
def wordOf (i : Instr) : Word40 :=
  match i with
  | .init baud => 0x10#8 ++ baud
  | .swTx id => 0x20#8 ++ id ++ 0#24
  | .swRx id => 0x30#8 ++ id ++ 0#24
  | .swAllTx => 0x4000000000
  | .buildRead id addr len => 0x50#8 ++ id ++ addr ++ 0#8 ++ len
  | .buildWrite all id addr val => (if all then 0x68#8 else 0x60#8) ++ id ++ addr ++ 0#8 ++ val
  | .buildWrite2 all id addr val => (if all then 0x78#8 else 0x70#8) ++ id ++ addr ++ val
  | .readPacket n => 0x80#8 ++ 0#24 ++ n
  | .getReg id addr width => 0x90#8 ++ id ++ addr ++ 0#8 ++ width
  | .setReg id addr val => 0xA0#8 ++ id ++ addr ++ 0#8 ++ val
  | .setReg2 id addr val => 0xB0#8 ++ id ++ addr ++ val
  | .getLastError => 0xC000000000
  | _ => 0

/-- The operands of a command stand at these bits of the word (R62, R63). -/
def OperandsAt (w : Word40) (i : Instr) : Prop :=
  match i with
  | .init baud => baud = w.extractLsb' 0 32
  | .swTx id => id = w.extractLsb' 24 8
  | .swRx id => id = w.extractLsb' 24 8
  | .buildRead id addr len => id = w.extractLsb' 24 8 ∧ addr = w.extractLsb' 16 8 ∧ len = w.extractLsb' 0 8
  | .buildWrite all id addr val =>
    all = w.getLsbD 35 ∧ id = w.extractLsb' 24 8 ∧ addr = w.extractLsb' 16 8 ∧ val = w.extractLsb' 0 8
  | .buildWrite2 all id addr val =>
    all = w.getLsbD 35 ∧ id = w.extractLsb' 24 8 ∧ addr = w.extractLsb' 16 8 ∧ val = w.extractLsb' 0 16
  | .readPacket n => n = w.extractLsb' 0 8
  | .getReg id addr width => id = w.extractLsb' 24 8 ∧ addr = w.extractLsb' 16 8 ∧ width = w.extractLsb' 0 8
  | .setReg id addr val => id = w.extractLsb' 24 8 ∧ addr = w.extractLsb' 16 8 ∧ val = w.extractLsb' 0 8
  | .setReg2 id addr val => id = w.extractLsb' 24 8 ∧ addr = w.extractLsb' 16 8 ∧ val = w.extractLsb' 0 16
  | _ => True

/-- The operands of a command are in range (R65). -/
def InRange (p : Params) (i : Instr) : Prop :=
  match i with
  | .swTx id => id ≠ 0xFF
  | .swRx id => id ≠ 0xFF
  | .buildRead id _ _ => id ≠ 0xFF
  | .buildWrite _ id _ _ => id ≠ 0xFF
  | .buildWrite2 _ id _ _ => id ≠ 0xFF
  | .readPacket n => 6 ≤ n.toNat ∧ n.toNat ≤ p.capDepth
  | .getReg id _ width => id ≠ 0xFF ∧ (width = 1 ∨ width = 2)
  | .setReg id _ _ => id ≠ 0xFF
  | .setReg2 id _ _ => id ≠ 0xFF
  | _ => True

/-- The command has `all = 1` (R66). -/
def hasAll (i : Instr) : Bool :=
  match i with
  | .buildWrite all _ _ _ => all
  | .buildWrite2 all _ _ _ => all
  | _ => false

/-- The command is `GET_REG`. -/
def isGetReg (i : Instr) : Bool :=
  match i with
  | .getReg _ _ _ => true
  | _ => false

/-- The value of `AUX_SEL` that the switches of a command leave (R94): unchanged in `SHARED` mode; else 0 for `INIT`, `SEL_ALL` for a
switch of all to transmit that no switch to receive follows, the table's entry for the id of every other. -/
def selectorAfter (s : State) (i : Instr) : Byte :=
  match s.cfg.dirMode with
  | .shared => s.auxSel
  | .perDevice =>
    if hasAll i then s.cfg.selAll
    else
      match i with
      | .init _ => 0
      | .swAllTx => s.cfg.selAll
      | .swTx id => (s.cfg.sel[id.toNat]?).getD 0
      | .swRx id => (s.cfg.sel[id.toNat]?).getD 0
      | .buildRead id _ _ => (s.cfg.sel[id.toNat]?).getD 0
      | .buildWrite _ id _ _ => (s.cfg.sel[id.toNat]?).getD 0
      | .buildWrite2 _ id _ _ => (s.cfg.sel[id.toNat]?).getD 0
      | .getReg id _ _ => (s.cfg.sel[id.toNat]?).getD 0
      | .setReg id _ _ => (s.cfg.sel[id.toNat]?).getD 0
      | .setReg2 id _ _ => (s.cfg.sel[id.toNat]?).getD 0
      | _ => s.auxSel

/-- `v` is `SelFor(d)` for the command in `CUR` (R94); the bits 39:36 of `CUR` are its operation code, bit 35 its `all` bit. -/
def SelectorFor (s : State) (d : Direction) (v : Byte) : Prop :=
  (s.cfg.dirMode = .shared ∧ v = s.auxSel) ∨
  (s.cfg.dirMode = .perDevice ∧ s.cur.extractLsb' 36 4 = 0x1 ∧ v = 0) ∨
  (s.cfg.dirMode = .perDevice ∧ s.cur.extractLsb' 36 4 ≠ 0x1 ∧
    (d = .transmit ∧ (s.cur.extractLsb' 36 4 = 0x4 ∨ s.cur.getLsbD 35 = true)) ∧ v = s.cfg.selAll) ∨
  (s.cfg.dirMode = .perDevice ∧ s.cur.extractLsb' 36 4 ≠ 0x1 ∧
    ¬ (d = .transmit ∧ (s.cur.extractLsb' 36 4 = 0x4 ∨ s.cur.getLsbD 35 = true)) ∧
    s.cfg.sel[(s.cur.extractLsb' 24 8).toNat]? = some v)

/-- What `Complete(ok, kind, value)` makes of a state (R28). -/
def ended (ok : Bool) (kind : Kind) (value : Word16) (s : State) : State :=
  { s with rspOk := ok, rspKind := kind, rspValue := value, rspValid := true, ph := .idle }

/-- What `raise Fail(kind)` makes of a state (R161). -/
def failed (kind : Kind) (s : State) : State := ended false kind 0xFFFF s

/-- The next step is a cycle with `rst = 1`. -/
def ResetNext (s : State) : Prop := ∃ p, nextEvent s = .cycle p ∧ p.rst = true

/-- The next step is a cycle with the inputs `p` and without reset: the engine acts. -/
def EngineNext (s : State) (p : Pins) : Prop := nextEvent s = .cycle p ∧ p.rst = false

/-- The next step empties the capture buffer (R110): a reset, or the engine in the second step of a switch. -/
def EmptiesNext (s : State) : Prop := ResetNext s ∨ ∃ p, EngineNext s p ∧ (s.ph = .swtxB ∨ s.ph = .swrxB)

/-- The bytes the transport delivers in the next step. -/
def deliveredNext (s : State) : List Byte :=
  match nextEvent s with
  | .cycle p => if p.rxValid then [p.rxData] else []
  | .line l => l

/-- The bytes of these cycles that are captured from `WR` on, while the receiver is as it is in `s`: all lost with the receiver off, as
many as there is room for with it on (R105, R106). -/
def caught (s : State) (l : List Pins) : List Byte := if s.rxEn then (delivered l).take (s.cfg.capDepth - s.wr) else []

/-- The codes of the failure kinds on `rsp_kind` (R162). -/
def codeOf (k : Kind) : Nat :=
  match k with
  | .none => 0
  | .timeout => 1
  | .checksum => 2
  | .overflow => 3
  | .badCmd => 4

/-- In the first of these cycles the host presents the command, and in none the block is reset. -/
def Presents (i : Instr) (p : Pins) (more : List Pins) : Prop :=
  NoReset (p :: more) ∧ p.cmdValid = true ∧ p.cmdWord = wordOf i

/-- What the bytes of a frame do when they arrive (R105, R106): with the receiver disabled all are lost; with the receiver enabled the
first ones, as many as there is room for, are stored from `WR` on, and a byte too many sets `OVF`. -/
def FrameArrives (i : Instr) (bytes : List Byte) (s : State) : Prop :=
  (s.rxEn = false → exec i s = .next { s with rxin := s.rxin ++ bytes }) ∧
  (s.rxEn = true → ∃ m, Stored m s.cap s.wr (bytes.take (s.cfg.capDepth - s.wr)) ∧
    exec i s = .next { s with
      cap := m, wr := s.wr + min bytes.length (s.cfg.capDepth - s.wr),
      ovf := s.ovf || decide (s.cfg.capDepth - s.wr < bytes.length), rxin := s.rxin ++ bytes })

end Sys2Proof.Words

section
open Sys2Proof Sys2Proof.Machine Sys2Proof.Safety Sys2Proof.Words

/-! ## Encoding -/

/-- R80: the spec's example words decode to the commands it names, and these commands encode to them. -/
def Obligations.SpecExampleWordsDecode : Prop :=
  ∀ x ∈ ([(.setReg 1 0x20 5, 0xA001200005), (.getReg 1 0x20 1, 0x9001200001), (.setReg2 1 0x1E 0x1234, 0xB0011E1234),
      (.buildWrite true 0xFE 0x19 1, 0x68FE190001), (.readPacket 7, 0x8000000007), (.init 1000000, 0x10000F4240),
      (.swAllTx, 0x4000000000), (.getLastError, 0xC000000000)] : List (Instr × Word40)),
    decode (Config.defaults 1) (.command x.2) = .ok x.1 ∧ encode (Config.defaults 1) x.1 = .command x.2

/-- Decoding an encoded instruction gives it back, for every operand value, where its bytes alone tell its row; where two rows of the
table share one layout (R71, spec/90_conflicts.md C5) it gives an instruction with the same bytes. Which row such bytes are read as
is the model's choice (assumption log 7). -/
def Obligations.DecodeEncodeRoundTrip : Prop :=
  ∀ (p : Params) (i : Instr),
    (toldApart p i = true → decode p (encode p i) = .ok i) ∧
    (toldApart p i = false → ∃ j, decode p (encode p i) = .ok j ∧ encode p j = encode p i)

/-- No bit of a word and no byte of a frame is dropped: what decodes is encoded back to the same word or bytes. -/
def Obligations.EncodeDecodeKeepsEveryBit : Prop :=
  ∀ (p : Params) (m : Image) (i : Instr), decode p m = .ok i → encode p i = m

/-- R60, R62: the encoder lays the fields out where the spec says. -/
def Obligations.EncoderLaysOutTheFields : Prop :=
  ∀ (p : Params) (i : Instr), isCommand i = true → encode p i = .command (wordOf i)

/-- R62: a word decodes to a row's command exactly when it selects the row by mask and match; no word selects two rows; the operands
stand at the bits of the table; and the rows are those of the table. -/
def Obligations.DecoderFollowsTheMaskTable : Prop :=
  commandRows.map (fun r => (r.mnemonic, r.pattern, r.mask)) =
    [("INIT", 0x1000000000, 0xFF00000000), ("SW_TX", 0x2000000000, 0xFF00FFFFFF), ("SW_RX", 0x3000000000, 0xFF00FFFFFF),
     ("SW_ALL_TX", 0x4000000000, 0xFFFFFFFFFF), ("BUILD_READ", 0x5000000000, 0xFF0000FF00),
     ("BUILD_WRITE", 0x6000000000, 0xF70000FF00), ("BUILD_WRITE2", 0x7000000000, 0xF700000000),
     ("READ_PACKET", 0x8000000000, 0xFFFFFFFF00), ("GET_REG", 0x9000000000, 0xFF0000FF00),
     ("SET_REG", 0xA000000000, 0xFF0000FF00), ("SET_REG2", 0xB000000000, 0xFF00000000),
     ("GET_LAST_ERROR", 0xC000000000, 0xFFFFFFFFFF)] ∧
  (∀ w : Word40, ∀ m : String, (∃ i, decodeCommand w = .ok i ∧ mnemonicOf i = m) ↔
    ∃ r ∈ commandRows, r.mnemonic = m ∧ w &&& r.mask = r.pattern) ∧
  (∀ w : Word40, ∀ r ∈ commandRows, ∀ q ∈ commandRows, w &&& r.mask = r.pattern → w &&& q.mask = q.pattern → r = q) ∧
  (∀ w i, decodeCommand w = .ok i → isCommand i = true ∧ OperandsAt w i)

/-- R64: exactly these words are refused, the all-zero word among them, and a refused word presented in `IDLE` fails with `BADCMD` and
changes nothing but the response registers. -/
def Obligations.RefusedWordsFailAndChangeNothing : Prop :=
  (∀ w : Word40, (∀ i, decodeCommand w ≠ .ok i) ↔
    (w.extractLsb' 36 4 ∈ ([0x0, 0xD, 0xE, 0xF] : List (BitVec 4)) ∨
     w.extractLsb' 32 3 ≠ 0 ∨
     (w.getLsbD 35 = true ∧ w.extractLsb' 36 4 ≠ 0x6 ∧ w.extractLsb' 36 4 ≠ 0x7) ∨
     ∃ r ∈ commandRows, r.pattern.extractLsb' 36 4 = w.extractLsb' 36 4 ∧ w &&& r.mask ≠ r.pattern)) ∧
  (∀ i, decodeCommand 0 ≠ .ok i) ∧
  (∀ s : State, s.ph = .idle → s.pins.cmdValid = true → (∀ i, decodeCommand s.pins.cmdWord ≠ .ok i) →
    engineStep s = .next (failed .badCmd s))

/-! ## Acceptance: what a presented command does in `IDLE` -/

/-- R65: a command out of range is refused in the same way, and every other operand value is legal. -/
def Obligations.OperandRangesDecideAcceptance : Prop :=
  ∀ (i : Instr) (s : State), isCommand i = true → s.ph = .idle →
    (¬ InRange s.cfg i → exec i s = .next (failed .badCmd s)) ∧
    (InRange s.cfg i → ∃ t, exec i s = .next t ∧ t.cur = wordOf i ∧ (t.rspValid = true → t.rspOk = true))

/-- R29, R192: while a command is in progress the presented word makes no difference at all; the engine goes on as if none were
presented. -/
def Obligations.BusyBlockIgnoresTheWord : Prop :=
  ∀ (s : State), s.ph ≠ .idle →
    (∀ i j, isCommand i = true → isCommand j = true → exec i s = exec j s) ∧
    (∀ (valid : Bool) (w : Word40),
      engineStep { s with pins := { s.pins with cmdValid := valid, cmdWord := w } } =
        andThen (engineStep s) (fun t => { t with pins := { s.pins with cmdValid := valid, cmdWord := w } }))

/-- R99, R100, R101: the acceptance of the three switch commands, with everything else unchanged. -/
def Obligations.SwitchCommandsAreAccepted : Prop :=
  ∀ s : State, s.ph = .idle →
    (∀ id, id ≠ 0xFF →
      exec (.swTx id) s = .next { s with cur := 0x20#8 ++ id ++ 0#24, ph := .swtxA, rspValid := false } ∧
      exec (.swRx id) s = .next { s with cur := 0x30#8 ++ id ++ 0#24, ph := .swrxA, rspValid := false }) ∧
    exec .swAllTx s = .next { s with cur := 0x4000000000, ph := .swtxA, rspValid := false }

/-- R136, R148: the acceptance of `BUILD_READ` and `GET_REG` builds the read request in `TXBUF` and touches nothing else. -/
def Obligations.ReadRequestsAreBuilt : Prop :=
  ∀ (s : State) (id addr x : Byte), s.ph = .idle → id ≠ 0xFF →
    (∃ m, Stored m s.txbuf 0 [0xFF, 0xFF, id, 4, s.cfg.instRead, addr, x, ~~~(id + 4 + s.cfg.instRead + addr + x)] ∧
      exec (.buildRead id addr x) s = .next
        { s with cur := 0x50#8 ++ id ++ addr ++ 0#8 ++ x, txbuf := m, txlen := 8, txpos := 0, ph := .swtxA, rspValid := false }) ∧
    (x = 1 ∨ x = 2 →
      ∃ m, Stored m s.txbuf 0 [0xFF, 0xFF, id, 4, s.cfg.instRead, addr, x, ~~~(id + 4 + s.cfg.instRead + addr + x)] ∧
      exec (.getReg id addr x) s = .next
        { s with cur := 0x90#8 ++ id ++ addr ++ 0#8 ++ x, txbuf := m, txlen := 8, txpos := 0, ph := .swtxA, rspValid := false })

/-- R137, R153: the acceptance of `BUILD_WRITE`, with and without `all`, and of `SET_REG` builds the write request for one byte. -/
def Obligations.ByteWriteRequestsAreBuilt : Prop :=
  ∀ (s : State) (id addr val : Byte), s.ph = .idle → id ≠ 0xFF →
    ∃ m, Stored m s.txbuf 0 [0xFF, 0xFF, id, 4, s.cfg.instWrite, addr, val, ~~~(id + 4 + s.cfg.instWrite + addr + val)] ∧
      exec (.buildWrite false id addr val) s = .next
        { s with cur := 0x60#8 ++ id ++ addr ++ 0#8 ++ val, txbuf := m, txlen := 8, txpos := 0, ph := .swtxA, rspValid := false } ∧
      exec (.buildWrite true id addr val) s = .next
        { s with cur := 0x68#8 ++ id ++ addr ++ 0#8 ++ val, txbuf := m, txlen := 8, txpos := 0, ph := .swtxA, rspValid := false } ∧
      exec (.setReg id addr val) s = .next
        { s with cur := 0xA0#8 ++ id ++ addr ++ 0#8 ++ val, txbuf := m, txlen := 8, txpos := 0, ph := .swtxA, rspValid := false }

/-- R138, R154, R42: the acceptance of `BUILD_WRITE2`, with and without `all`, and of `SET_REG2` builds the write request for a 16-bit
value, low byte first. -/
def Obligations.WordWriteRequestsAreBuilt : Prop :=
  ∀ (s : State) (id addr lo hi : Byte), s.ph = .idle → id ≠ 0xFF →
    ∃ m, Stored m s.txbuf 0
        [0xFF, 0xFF, id, 5, s.cfg.instWrite, addr, lo, hi, ~~~(id + 5 + s.cfg.instWrite + addr + lo + hi)] ∧
      exec (.buildWrite2 false id addr (hi ++ lo)) s = .next
        { s with cur := 0x70#8 ++ id ++ addr ++ hi ++ lo, txbuf := m, txlen := 9, txpos := 0, ph := .swtxA, rspValid := false } ∧
      exec (.buildWrite2 true id addr (hi ++ lo)) s = .next
        { s with cur := 0x78#8 ++ id ++ addr ++ hi ++ lo, txbuf := m, txlen := 9, txpos := 0, ph := .swtxA, rspValid := false } ∧
      exec (.setReg2 id addr (hi ++ lo)) s = .next
        { s with cur := 0xB0#8 ++ id ++ addr ++ hi ++ lo, txbuf := m, txlen := 9, txpos := 0, ph := .swtxA, rspValid := false }

/-- R114, R115, R156: the acceptance of `READ_PACKET` starts the reader, that of `INIT` stores the baud operand and empties the frame
window; neither touches the capture buffer or the direction. -/
def Obligations.ReadPacketAndInitAreAccepted : Prop :=
  ∀ s : State, s.ph = .idle →
    (∀ n : Byte, 6 ≤ n.toNat → n.toNat ≤ s.cfg.capDepth →
      exec (.readPacket n) s = .next
        { s with cur := 0x80#8 ++ 0#24 ++ n, expect := n.toNat, cnt := 0, waitc := 0, frameValid := false, lenOk := false,
                 ph := .read, rspValid := false }) ∧
    (∀ baud : Word32,
      exec (.init baud) s = .next
        { s with cur := 0x10#8 ++ baud, baud := baud, cnt := 0, frameValid := false, lenOk := false, ph := .swrxA,
                 rspValid := false })

/-- R155: `GET_LAST_ERROR` is one step: it returns `LASTERR` zero-extended and changes nothing but `CUR` and the response. -/
def Obligations.GetLastErrorReturnsTheStatus : Prop :=
  ∀ s : State, s.ph = .idle →
    exec .getLastError s = .next
      { s with cur := 0xC000000000, rspOk := true, rspKind := .none, rspValue := 0#8 ++ s.lasterr, rspValid := true }

/-- R71, R73 to R76, R105, R106: the bytes of each of the four frames, and what they do when they arrive on the line. That a frame row
of the table means its arrival is the model's reading (assumption log 6). -/
def Obligations.WireFramesAreCaptured : Prop :=
  ∀ s : State,
    (∀ id addr len chk, FrameArrives (.frameReadReq id addr len chk) [0xFF, 0xFF, id, 4, s.cfg.instRead, addr, len, chk] s) ∧
    (∀ id addr val chk, FrameArrives (.frameWrite1Req id addr val chk) [0xFF, 0xFF, id, 4, s.cfg.instWrite, addr, val, chk] s) ∧
    (∀ id addr lo hi chk,
      FrameArrives (.frameWrite2Req id addr (hi ++ lo) chk) [0xFF, 0xFF, id, 5, s.cfg.instWrite, addr, lo, hi, chk] s) ∧
    (∀ id length status data chk,
      FrameArrives (.frameResponse id length status data chk) ([0xFF, 0xFF, id, length, status] ++ data ++ [chk]) s)

/-! ## One step -/

/-- A step runs the instruction that is decoded: a presented command word, then the receive step of the cycle; a frame on the line; and
what `withFetchWord` places is what the next step runs (how an instruction is placed: assumption log 4). -/
def Obligations.StepRunsTheDecodedInstruction : Prop :=
  (∀ s p rest i, s.inputs = .cycle p :: rest → p.rst = false → p.cmdValid = true → decodeCommand p.cmdWord = .ok i →
    step s = andThen (exec i { s with inputs := rest, clock := s.clock + 1, pins := p }) (rxStep p.rxValid p.rxData)) ∧
  (∀ s bytes rest i, s.inputs = .line bytes :: rest → decodeFrame s.cfg bytes = .ok i →
    step s = exec i { s with inputs := rest, clock := s.clock + 1 }) ∧
  (∀ (s : State) nbits w c i, imageOf nbits w = .command c → decodeCommand c = .ok i →
    step (s.withFetchWord nbits w) = exec i { s with ph := .idle, clock := s.clock + 1, pins := present c }) ∧
  (∀ (s : State) nbits w bytes i, imageOf nbits w = .line bytes → decodeFrame s.cfg bytes = .ok i →
    step (s.withFetchWord nbits w) = exec i { s with clock := s.clock + 1 })

/-- R15: a cycle is a reset, or the engine step and then the receive step; so a byte of the cycle of `SWRX_B` is captured at `CAP[0]`, one
of the cycle of `SWTX_A` is not captured, and an empty poll does not see the byte of its own cycle. -/
def Obligations.CycleIsEngineThenReceive : Prop :=
  ∀ s p rest, s.inputs = .cycle p :: rest →
    (p.rst = true → ∃ t, step s = .next t ∧
      { t with txlog := [], rxin := [], pins := Pins.quiet, clock := 0 } = State.resetWith s.cfg rest) ∧
    (p.rst = false → step s =
      andThen (engineStep { s with inputs := rest, clock := s.clock + 1, pins := p }) (rxStep p.rxValid p.rxData)) ∧
    (p.rst = false → p.rxValid = true → s.ph = .swrxB → 0 < s.cfg.capDepth →
      ∃ t, step s = .next t ∧ t.wr = 1 ∧ Memory.read t.cap 0 = some p.rxData) ∧
    (p.rst = false → s.ph = .swtxA → ∀ t, step s = .next t → t.wr = s.wr ∧ t.cap = s.cap ∧ t.ovf = s.ovf) ∧
    (p.rst = false → p.rxValid = true → s.ph = .read → s.rd = s.wr → s.ovf = false → s.waitc < s.cfg.waitBudget →
      s.rxEn = true → s.wr < s.cfg.capDepth →
      ∃ t, step s = .next t ∧ t.waitc = s.waitc + 1 ∧ t.rd = s.rd ∧ t.cnt = s.cnt ∧ t.wr = s.wr + 1)

/-- R171 (a), (b): a byte that arrives in the cycle of the poll that times out does not rescue the read; it is captured for the next. -/
def Obligations.LateByteDoesNotRescueTheRead : Prop :=
  ∀ s p rest, s.inputs = .cycle p :: rest → p.rst = false → p.rxValid = true → s.ph = .read → s.rd = s.wr → s.ovf = false →
    s.waitc = s.cfg.waitBudget → s.rxEn = true → s.wr < s.cfg.capDepth →
    ∃ m, Stored m s.cap s.wr [p.rxData] ∧
      step s = .next (failed .timeout { s with
        cap := m, wr := s.wr + 1, rxin := s.rxin ++ [p.rxData], inputs := rest, clock := s.clock + 1, pins := p })

/-- R32, R186: the value of every register after a cycle with `rst = 1`, whatever the state was. That the arrays then hold no value is how
the model says that their contents are unspecified (assumption log 8, 14); bytes already sent stay sent (R187), and no parameter
changes (R188). -/
def Obligations.ResetValues : Prop :=
  ∀ s p rest, s.inputs = .cycle p :: rest → p.rst = true → ∃ t, step s = .next t ∧
    t.dir = .receive ∧ t.txEn = false ∧ t.rxEn = false ∧ t.auxSel = 0 ∧ t.baud = 0 ∧ t.lasterr = 0 ∧ t.wr = 0 ∧ t.rd = 0 ∧
    t.ovf = false ∧ t.cnt = 0 ∧ t.expect = 0 ∧ t.waitc = 0 ∧ t.frameValid = false ∧ t.lenOk = false ∧ t.txlen = 0 ∧ t.txpos = 0 ∧
    t.ph = .idle ∧ t.cur = 0 ∧ t.rspOk = false ∧ t.rspKind = .none ∧ t.rspValue = 0 ∧ t.rspValid = false ∧
    (∀ k, Memory.read t.cap k = none ∧ Memory.read t.asm k = none ∧ Memory.read t.txbuf k = none) ∧
    t.cfg = s.cfg ∧ t.txlog = s.txlog ∧ t.inputs = rest

/-- R94, R95, R96: the two steps of a switch to transmit. -/
def Obligations.SwitchToTransmitSteps : Prop :=
  ∀ s : State,
    (∀ v, s.ph = .swtxA → SelectorFor s .transmit v →
      engineStep s = .next { s with rxEn := false, auxSel := v, ph := .swtxB, rspValid := false }) ∧
    (s.ph = .swtxB → engineStep s = .next
      (if s.cur.extractLsb' 36 4 = 0x2 ∨ s.cur.extractLsb' 36 4 = 0x4
        then ended true .none 0 { s with txEn := true, dir := .transmit, wr := 0, rd := 0, ovf := false }
        else { s with txEn := true, dir := .transmit, wr := 0, rd := 0, ovf := false, ph := .send, rspValid := false }))

/-- R94, R97, R98, R115: the two steps of a switch to receive; inside `GET_REG` the second one starts the reader. -/
def Obligations.SwitchToReceiveSteps : Prop :=
  ∀ s : State,
    (∀ v, s.ph = .swrxA → SelectorFor s .receive v →
      engineStep s = .next { s with txEn := false, auxSel := v, ph := .swrxB, rspValid := false }) ∧
    (s.ph = .swrxB → engineStep s = .next
      (if s.cur.extractLsb' 36 4 = 0x9
        then { s with rxEn := true, dir := .receive, wr := 0, rd := 0, ovf := false,
                      expect := (s.cur.extractLsb' 0 8).toNat + 6, cnt := 0, waitc := 0, frameValid := false, lenOk := false,
                      ph := .read, rspValid := false }
        else ended true .none 0 { s with rxEn := true, dir := .receive, wr := 0, rd := 0, ovf := false }))

/-- R140: the phase `SEND`. The byte presented is `TXBUF[TXPOS]`; a ready transport takes it, a stalled one changes nothing; after the
last byte the command ends (`all = 1`) or the switch to receive begins; in every other phase `tx_ready` is ignored. -/
def Obligations.SendStep : Prop :=
  ∀ s : State,
    (s.ph = .send → ∀ b, Memory.read s.txbuf s.txpos = some b →
      (∀ idx, (outputs s idx).txValid = true ∧ (outputs s idx).txData = some b) ∧
      (s.pins.txReady = false → engineStep s = .next { s with rspValid := false }) ∧
      (s.pins.txReady = true → s.txpos < 9 →
        engineStep s = .next
          (if s.txpos + 1 = s.txlen then
            (if s.cur.getLsbD 35 = true then ended true .none 0 { s with txlog := s.txlog ++ [b], txpos := s.txpos + 1 }
             else { s with txlog := s.txlog ++ [b], txpos := s.txpos + 1, ph := .swrxA, rspValid := false })
           else { s with txlog := s.txlog ++ [b], txpos := s.txpos + 1, rspValid := false }))) ∧
    (s.ph ≠ .send → ∀ ready : Bool,
      engineStep { s with pins := { s.pins with txReady := ready } } =
        andThen (engineStep s) (fun t => { t with pins := { s.pins with txReady := ready } }))

/-- R116, R117, R119, R120: the phase `READ`, its four branches in their order, with the resynchronization rule. -/
def Obligations.ReadStep : Prop :=
  ∀ s : State, s.ph = .read →
    (s.rd < s.wr → s.rd < s.cfg.capDepth → ∀ b, Memory.read s.cap s.rd = some b →
      ((s.cnt = 0 ∧ b ≠ 0xFF) ∨ (s.cnt = 2 ∧ b = 0xFF) →
        engineStep s = .next { s with rd := s.rd + 1, waitc := 0, rspValid := false }) ∧
      (¬ ((s.cnt = 0 ∧ b ≠ 0xFF) ∨ (s.cnt = 2 ∧ b = 0xFF)) → s.cnt < s.cfg.capDepth →
        ∃ m, Stored m s.asm s.cnt [b] ∧
          engineStep s = .next { s with
            rd := s.rd + 1, waitc := 0, asm := m, cnt := s.cnt + 1,
            ph := if s.cnt + 1 = s.expect then .check else .read, rspValid := false })) ∧
    (s.wr ≤ s.rd → s.ovf = true → engineStep s = .next (failed .overflow s)) ∧
    (s.wr ≤ s.rd → s.ovf = false → s.waitc = s.cfg.waitBudget → engineStep s = .next (failed .timeout s)) ∧
    (s.wr ≤ s.rd → s.ovf = false → s.waitc ≠ s.cfg.waitBudget →
      engineStep s = .next { s with waitc := s.waitc + 1, rspValid := false })

/-- R89, R124, R125, R152: the phase `CHECK`. `l` are the bytes `ASM[2 .. EXPECT-1]`. -/
def Obligations.CheckStep : Prop :=
  ∀ (s : State) (l : List Byte), s.ph = .check → 6 ≤ s.expect → s.expect ≤ s.cfg.capDepth → l.length = s.expect - 2 →
    (∀ k < l.length, Memory.read s.asm (2 + k) = l[k]?) →
    (total l % 256 ≠ 255 → engineStep s = .next (failed .checksum s)) ∧
    (total l % 256 = 255 → ∀ length status lo, l[1]? = some length → l[2]? = some status → l[3]? = some lo →
      (s.cur.extractLsb' 36 4 ≠ 0x9 → engineStep s = .next
        (ended true .none 0 { s with frameValid := true, lenOk := decide (length.toNat = s.expect - 4) })) ∧
      (s.cur.extractLsb' 36 4 = 0x9 → s.cur.extractLsb' 0 8 = 1 → engineStep s = .next
        (ended true .none (0#8 ++ lo)
          { s with frameValid := true, lenOk := decide (length.toNat = s.expect - 4), lasterr := status })) ∧
      (s.cur.extractLsb' 36 4 = 0x9 → s.cur.extractLsb' 0 8 ≠ 1 → ∀ hi, l[4]? = some hi → engineStep s = .next
        (ended true .none (BitVec.ofNat 16 (lo.toNat + 256 * hi.toNat))
          { s with frameValid := true, lenOk := decide (length.toNat = s.expect - 4), lasterr := status })))

/-- R105: the receive step: what it writes in each case; it reads no phase, and the engine writes `CAP` never, `WR` and `OVF` only in the
two steps that empty the buffer. -/
def Obligations.ReceiveStep : Prop :=
  (∀ (s : State) (b : Byte),
    rxStep false b s = s ∧
    (s.rxEn = false → rxStep true b s = { s with rxin := s.rxin ++ [b] }) ∧
    (s.rxEn = true → s.wr < s.cfg.capDepth → ∃ m, Stored m s.cap s.wr [b] ∧
      rxStep true b s = { s with cap := m, wr := s.wr + 1, rxin := s.rxin ++ [b] }) ∧
    (s.rxEn = true → s.cfg.capDepth ≤ s.wr → rxStep true b s = { s with ovf := true, rxin := s.rxin ++ [b] })) ∧
  (∀ s t : State, engineStep s = .next t →
    t.cap = s.cap ∧ ((t.wr = s.wr ∧ t.ovf = s.ovf) ∨ ((s.ph = .swtxB ∨ s.ph = .swrxB) ∧ t.wr = 0 ∧ t.ovf = false)))

/-! ## What a step can change -/

/-- R48, R105, R106: in a step that does not empty the buffer the delivered bytes are stored from `WR` on in arrival order, none
missing and none twice, as far as there is room; with the receiver off nothing is stored. -/
def Obligations.CaptureKeepsArrivalOrder : Prop :=
  ∀ s t : State, step s = .next t → ¬ EmptiesNext s →
    (t.rxEn = true →
      Stored t.cap s.cap s.wr ((deliveredNext s).take (s.cfg.capDepth - s.wr)) ∧
      t.wr = s.wr + min (deliveredNext s).length (s.cfg.capDepth - s.wr) ∧
      t.ovf = (s.ovf || decide (s.cfg.capDepth - s.wr < (deliveredNext s).length))) ∧
    (t.rxEn = false → t.cap = s.cap ∧ t.wr = s.wr ∧ t.ovf = s.ovf)

/-- R110: the capture buffer is emptied at exactly these steps. -/
def Obligations.CaptureIsEmptiedOnlyBySwitchOrReset : Prop :=
  ∀ s t : State, step s = .next t →
    (EmptiesNext s → t.rd = 0 ∧ t.wr ≤ 1 ∧ (0 < s.cfg.capDepth → t.ovf = false)) ∧
    (¬ EmptiesNext s → s.wr ≤ t.wr ∧ s.rd ≤ t.rd ∧ (s.ovf = true → t.ovf = true))

/-- R20, R24, R104: the direction registers change only in the phases of a switch, each in its own; one enable never rises in the cycle
the other falls. -/
def Obligations.DirectionChangesOnlyInSwitches : Prop :=
  ∀ s t : State, step s = .next t → ¬ ResetNext s →
    (t.dir ≠ s.dir → (s.ph = .swtxB ∧ t.dir = .transmit) ∨ (s.ph = .swrxB ∧ t.dir = .receive)) ∧
    (t.txEn ≠ s.txEn → (s.ph = .swtxB ∧ t.txEn = true) ∨ (s.ph = .swrxA ∧ t.txEn = false)) ∧
    (t.rxEn ≠ s.rxEn → (s.ph = .swrxB ∧ t.rxEn = true) ∨ (s.ph = .swtxA ∧ t.rxEn = false)) ∧
    (t.auxSel ≠ s.auxSel → (s.ph = .swtxA ∨ s.ph = .swrxA) ∧ s.cfg.dirMode = .perDevice) ∧
    (t.txEn ≠ s.txEn → t.rxEn = s.rxEn)

/-- R22, R23: `LASTERR` changes only in the `CHECK` step of a `GET_REG` that succeeds, to the status byte; `BAUD` only when an `INIT` is
accepted, to its operand; both return to 0 in a reset. -/
def Obligations.LastErrorAndBaudAreKept : Prop :=
  ∀ s t : State, step s = .next t →
    (t.lasterr = s.lasterr ∨ (ResetNext s ∧ t.lasterr = 0) ∨
      (s.ph = .check ∧ s.cur.extractLsb' 36 4 = 0x9 ∧ t.rspValid = true ∧ t.rspOk = true ∧
        Memory.read s.asm 4 = some t.lasterr)) ∧
    (t.baud = s.baud ∨ (ResetNext s ∧ t.baud = 0) ∨
      (s.ph = .idle ∧ ∃ p, EngineNext s p ∧ p.cmdValid = true ∧ p.cmdWord = 0x10#8 ++ t.baud))

/-- R57, R134, R140: the word in progress and the frame being sent change only in a reset or when a word is accepted, which is then the
word that was presented; nothing the line receiver does alters them. `TXPOS` returns to 0 in a reset and when a frame-sending command
is accepted, counts one up in a cycle of `SEND` in which the transport is ready, and changes in no other step. -/
def Obligations.AcceptedCommandIsLatched : Prop :=
  ∀ s t : State, step s = .next t →
    ((t.cur = s.cur ∧ t.txbuf = s.txbuf ∧ t.txlen = s.txlen) ∨ ResetNext s ∨
      (s.ph = .idle ∧ ∃ p, EngineNext s p ∧ p.cmdValid = true ∧ t.cur = p.cmdWord)) ∧
    (t.txpos = s.txpos ∨ (t.txpos = 0 ∧ ResetNext s) ∨
      (t.txpos = 0 ∧ s.ph = .idle ∧ t.ph = .swtxA ∧ (t.txlen = 8 ∨ t.txlen = 9) ∧
        ∃ p, EngineNext s p ∧ p.cmdValid = true ∧ t.cur = p.cmdWord) ∨
      (t.txpos = s.txpos + 1 ∧ s.ph = .send ∧ ∃ p, EngineNext s p ∧ p.txReady = true))

/-- R20, R115, R118, R127: the assembled frame and its flags change only where the reader stores a byte, where it starts, where `INIT` is
accepted, and where `CHECK` accepts the frame; `EXPECT` changes only where the reader starts, to the size that the command asks for. -/
def Obligations.FrameWindowIsKept : Prop :=
  ∀ s t : State, step s = .next t → ¬ ResetNext s →
    (t.asm ≠ s.asm → s.ph = .read) ∧
    (t.cnt ≠ s.cnt → (s.ph = .read ∧ t.cnt = s.cnt + 1) ∨
      (t.cnt = 0 ∧ ((s.ph = .idle ∧ (t.cur.extractLsb' 36 4 = 0x1 ∨ t.cur.extractLsb' 36 4 = 0x8)) ∨
        (s.ph = .swrxB ∧ s.cur.extractLsb' 36 4 = 0x9)))) ∧
    (t.frameValid ≠ s.frameValid → (s.ph = .check ∧ t.frameValid = true ∧ t.rspValid = true ∧ t.rspOk = true) ∨
      (t.frameValid = false ∧ t.lenOk = false ∧ t.cnt = 0 ∧ (s.ph = .idle ∨ s.ph = .swrxB))) ∧
    (t.lenOk ≠ s.lenOk → s.ph = .check ∨ (t.lenOk = false ∧ (s.ph = .idle ∨ s.ph = .swrxB))) ∧
    (t.expect ≠ s.expect → t.ph = .read ∧ t.cnt = 0 ∧
      ((s.ph = .idle ∧ t.cur.extractLsb' 36 4 = 0x8 ∧ t.expect = (t.cur.extractLsb' 0 8).toNat) ∨
        (s.ph = .swrxB ∧ s.cur.extractLsb' 36 4 = 0x9 ∧ t.expect = (s.cur.extractLsb' 0 8).toNat + 6)))

/-- R177: `WAITC` is set to 0 by a reset, by a reader start and by a consumed byte, counts one up at an empty poll within the budget,
and is written by nothing else. -/
def Obligations.WaitCounterCountsEmptyPolls : Prop :=
  ∀ s t : State, step s = .next t → t.waitc ≠ s.waitc →
    (t.waitc = 0 ∧ ResetNext s) ∨
    (t.waitc = 0 ∧ t.ph = .read ∧ t.cnt = 0 ∧ (s.ph = .idle ∨ s.ph = .swrxB)) ∨
    (t.waitc = 0 ∧ s.ph = .read ∧ s.rd < s.wr ∧ t.rd = s.rd + 1) ∨
    (t.waitc = s.waitc + 1 ∧ s.ph = .read ∧ s.wr ≤ s.rd ∧ s.ovf = false ∧ s.waitc ≠ s.cfg.waitBudget)

/-- R14, R31 (c), R188: `TXLOG` grows by one byte, `TXBUF[TXPOS]`, in a cycle of `SEND` in which the transport is ready, and never
otherwise; `RXIN` grows by the delivered bytes; a parameter never changes. -/
def Obligations.TracesGrowAndParametersStay : Prop :=
  ∀ s t : State, step s = .next t →
    (t.txlog = s.txlog ∨
      (s.ph = .send ∧ ∃ p b, EngineNext s p ∧ p.txReady = true ∧ Memory.read s.txbuf s.txpos = some b ∧
        t.txlog = s.txlog ++ [b] ∧ t.txpos = s.txpos + 1)) ∧
    t.rxin = s.rxin ++ deliveredNext s ∧ t.cfg = s.cfg

/-- R28, R30, R67, R193: `RSP_VALID` is 1 after an engine step exactly when that step ended a command; the kind is `NONE` exactly for a
success; the outcome is kept until the next command ends. -/
def Obligations.ResponseStrobeMarksTheEnd : Prop :=
  ∀ s t : State, ∀ p, EngineNext s p → step s = .next t →
    (t.rspValid = true ↔ t.ph = .idle ∧ (s.ph ≠ .idle ∨ p.cmdValid = true)) ∧
    (t.rspValid = true → (t.rspOk = true ↔ t.rspKind = .none) ∧ (t.rspOk = false → t.rspValue = 0xFFFF)) ∧
    (t.rspValid = false → t.rspOk = s.rspOk ∧ t.rspKind = s.rspKind ∧ t.rspValue = s.rspValue)

/-- R64, R65, R161, R162, R165, R170, R172: a failing step writes the response and the phase and nothing else; each kind is raised only
in its phase and for its cause: `BADCMD` for a presented word that selects no row or whose operand is out of range. -/
def Obligations.FailuresAreExactlyThese : Prop :=
  ∀ s t : State, engineStep s = .next t → t.rspValid = true → t.rspOk = false →
    t = failed t.rspKind s ∧
    ((t.rspKind = .badCmd ∧ s.ph = .idle ∧ s.pins.cmdValid = true ∧
        ((∀ i, decodeCommand s.pins.cmdWord ≠ .ok i) ∨ ∃ i, decodeCommand s.pins.cmdWord = .ok i ∧ ¬ InRange s.cfg i)) ∨
     (t.rspKind = .overflow ∧ s.ph = .read ∧ s.wr ≤ s.rd ∧ s.ovf = true) ∨
     (t.rspKind = .timeout ∧ s.ph = .read ∧ s.wr ≤ s.rd ∧ s.ovf = false ∧ s.waitc = s.cfg.waitBudget) ∨
     (t.rspKind = .checksum ∧ s.ph = .check ∧
       ∃ l, readBytes .asm s 2 (s.expect - 2) = .ok l ∧ total l % 256 ≠ 255))

/-! ## Whole commands -/

/-- R99, R101, R102, R190, R204: `SW_TX` and `SW_ALL_TX` take three cycles from any direction and whatever arrives meanwhile, end in
Transmit with an empty buffer and a success, and change nothing else; in `CAP`, none of which is readable then, only a byte
of the first cycle may have been stored, where `WR` was. -/
def Obligations.SwitchToTransmitTakesThreeCycles : Prop :=
  ∀ (s : State) (i : Instr) (p0 p1 p2 : Pins) (rest : List Event), s.cfg.Legal → s.ph = .idle →
    (i = .swAllTx ∨ ∃ id, i = .swTx id ∧ id ≠ 0xFF) → s.inputs = cycles [p0, p1, p2] ++ rest → Presents i p0 [p1, p2] →
    ∃ t, runSteps 3 s = .next t ∧ Stored t.cap s.cap s.wr (caught s [p0]) ∧
      t = ended true .none 0 { s with
        dir := .transmit, txEn := true, rxEn := false, auxSel := selectorAfter s i, wr := 0, rd := 0, ovf := false,
        cur := wordOf i, cap := t.cap, rxin := s.rxin ++ delivered [p0, p1, p2], inputs := rest, pins := p2,
        clock := s.clock + 3 }

/-- R100, R102, R156, R190, R204: `SW_RX` and `INIT` take three cycles from any direction, end in Receive with a success and with at most
the byte of the last cycle in the buffer; `INIT` also stores the baud operand and empties the frame window; nothing else changes. In `CAP`
itself the bytes of the first two cycles are stored where `WR` was (if the receiver was on), then that of the last at index 0. -/
def Obligations.SwitchToReceiveTakesThreeCycles : Prop :=
  ∀ (s : State) (p0 p1 p2 : Pins) (rest : List Event), s.cfg.Legal → s.ph = .idle → s.inputs = cycles [p0, p1, p2] ++ rest →
    (∀ id, id ≠ 0xFF → Presents (.swRx id) p0 [p1, p2] → ∃ t, runSteps 3 s = .next t ∧
      (∃ m, Stored m s.cap s.wr (caught s [p0, p1]) ∧ Stored t.cap m 0 (delivered [p2])) ∧
      t = ended true .none 0 { s with
        dir := .receive, txEn := false, rxEn := true, auxSel := selectorAfter s (.swRx id),
        wr := if p2.rxValid then 1 else 0, rd := 0, ovf := false, cur := wordOf (.swRx id), cap := t.cap,
        rxin := s.rxin ++ delivered [p0, p1, p2], inputs := rest, pins := p2, clock := s.clock + 3 }) ∧
    (∀ baud, Presents (.init baud) p0 [p1, p2] → ∃ t, runSteps 3 s = .next t ∧
      (∃ m, Stored m s.cap s.wr (caught s [p0, p1]) ∧ Stored t.cap m 0 (delivered [p2])) ∧
      t = ended true .none 0 { s with
        dir := .receive, txEn := false, rxEn := true, auxSel := selectorAfter s (.init baud), baud := baud,
        cnt := 0, frameValid := false, lenOk := false,
        wr := if p2.rxValid then 1 else 0, rd := 0, ovf := false, cur := wordOf (.init baud), cap := t.cap,
        rxin := s.rxin ++ delivered [p0, p1, p2], inputs := rest, pins := p2, clock := s.clock + 3 })

/-- R19, R133 to R138, R142, R145, R153, R154, R204: a frame-sending command without `all`, other than `GET_REG`, hands over exactly its
frame, whatever the stalls and whatever arrives, and ends in Receive with a success. `mid` are the cycles of `SEND`: as many ready
ones as the frame has bytes, the last one ready. In `CAP` only a byte of the first cycle (where `WR` was) and one of the last (at index
0) may have been stored. -/
def Obligations.FrameIsSentThenReceive : Prop :=
  ∀ (s : State) (i : Instr) (p0 p1 p2 q0 q1 : Pins) (mid : List Pins) (rest : List Event), s.cfg.Legal → s.ph = .idle →
    frameOf s.cfg i ≠ [] → hasAll i = false → isGetReg i = false → InRange s.cfg i →
    s.inputs = cycles (p0 :: p1 :: p2 :: (mid ++ [q0, q1])) ++ rest → Presents i p0 (p1 :: p2 :: (mid ++ [q0, q1])) →
    readyCount mid = (frameOf s.cfg i).length → mid.getLast?.map (·.txReady) = some true →
    ∃ t, runSteps (mid.length + 5) s = .next t ∧ Stored t.txbuf s.txbuf 0 (frameOf s.cfg i) ∧
      (∃ m, Stored m s.cap s.wr (caught s [p0]) ∧ Stored t.cap m 0 (delivered [q1])) ∧
      t = ended true .none 0 { s with
        dir := .receive, txEn := false, rxEn := true, auxSel := selectorAfter s i,
        wr := if q1.rxValid then 1 else 0, rd := 0, ovf := false, cur := wordOf i, cap := t.cap, txbuf := t.txbuf,
        txlen := (frameOf s.cfg i).length, txpos := (frameOf s.cfg i).length, txlog := s.txlog ++ frameOf s.cfg i,
        rxin := s.rxin ++ delivered (p0 :: p1 :: p2 :: (mid ++ [q0, q1])), inputs := rest, pins := q1,
        clock := s.clock + (mid.length + 5) }

/-- R66, R139, R142, R203: with `all = 1` the command ends in the step that hands over the last byte and leaves the bus in Transmit.
In `CAP` only a byte of the first cycle may have been stored, where `WR` was. -/
def Obligations.FrameIsSentStayingInTransmit : Prop :=
  ∀ (s : State) (i : Instr) (p0 p1 p2 : Pins) (mid : List Pins) (rest : List Event), s.cfg.Legal → s.ph = .idle →
    hasAll i = true → InRange s.cfg i → s.inputs = cycles (p0 :: p1 :: p2 :: mid) ++ rest → Presents i p0 (p1 :: p2 :: mid) →
    readyCount mid = (frameOf s.cfg i).length → mid.getLast?.map (·.txReady) = some true →
    ∃ t, runSteps (mid.length + 3) s = .next t ∧ Stored t.txbuf s.txbuf 0 (frameOf s.cfg i) ∧
      Stored t.cap s.cap s.wr (caught s [p0]) ∧
      t = ended true .none 0 { s with
        dir := .transmit, txEn := true, rxEn := false, auxSel := selectorAfter s i,
        wr := 0, rd := 0, ovf := false, cur := wordOf i, cap := t.cap, txbuf := t.txbuf,
        txlen := (frameOf s.cfg i).length, txpos := (frameOf s.cfg i).length, txlog := s.txlog ++ frameOf s.cfg i,
        rxin := s.rxin ++ delivered (p0 :: p1 :: p2 :: mid), inputs := rest, pins := t.pins,
        clock := s.clock + (mid.length + 3) }

/-- R148, R149, R51 (2): `GET_REG` sends its request, switches to receive, and starts the reader in the very step that enables the
receiver: at that point nothing but a byte of that very cycle is in the buffer (a byte of the first cycle may still stand in `CAP` where
`WR` was, and no rule reads it). -/
def Obligations.GetRegSendsThenReads : Prop :=
  ∀ (s : State) (id addr width : Byte) (p0 p1 p2 q0 q1 : Pins) (mid : List Pins) (rest : List Event), s.cfg.Legal → s.ph = .idle →
    InRange s.cfg (.getReg id addr width) → s.inputs = cycles (p0 :: p1 :: p2 :: (mid ++ [q0, q1])) ++ rest →
    Presents (.getReg id addr width) p0 (p1 :: p2 :: (mid ++ [q0, q1])) → readyCount mid = 8 →
    mid.getLast?.map (·.txReady) = some true →
    ∃ t, runSteps (mid.length + 5) s = .next t ∧ Stored t.txbuf s.txbuf 0 (request8 id s.cfg.instRead addr width) ∧
      (∃ m, Stored m s.cap s.wr (caught s [p0]) ∧ Stored t.cap m 0 (delivered [q1])) ∧
      t = { s with
        dir := .receive, txEn := false, rxEn := true, auxSel := selectorAfter s (.getReg id addr width),
        wr := if q1.rxValid then 1 else 0, rd := 0, ovf := false, cur := wordOf (.getReg id addr width), cap := t.cap,
        txbuf := t.txbuf, txlen := 8, txpos := 8, txlog := s.txlog ++ request8 id s.cfg.instRead addr width,
        expect := width.toNat + 6, cnt := 0, waitc := 0, frameValid := false, lenOk := false, ph := .read, rspValid := false,
        rxin := s.rxin ++ delivered (p0 :: p1 :: p2 :: (mid ++ [q0, q1])), inputs := rest, pins := q1,
        clock := s.clock + (mid.length + 5) }

/-- R114, R117, R118, R122 to R125, R128, R129: `READ_PACKET n` over captured bytes: any bytes other than the marker, then `k` markers
with `k` at least 2, then the `n - 2` bytes of a frame from its id on. It skips the noise and the extra markers, assembles the frame,
judges it by its sum, and leaves the bytes after it in the buffer. -/
def Obligations.ReadPacketResynchronizes : Prop :=
  ∀ (s : State) (n : Byte) (noise body : List Byte) (k : Nat) (p0 : Pins) (ps : List Pins) (rest : List Event), s.ph = .idle →
    InRange s.cfg (.readPacket n) → (∀ b ∈ noise, b ≠ 0xFF) → 2 ≤ k → body.length + 2 = n.toNat →
    body.head? ≠ some 0xFF → s.rd + (noise.length + k + body.length) ≤ s.wr → s.wr ≤ s.cfg.capDepth →
    (∀ j < noise.length + k + body.length,
      Memory.read s.cap (s.rd + j) = (noise ++ List.replicate k 0xFF ++ body)[j]?) →
    s.inputs = cycles (p0 :: ps) ++ rest → Presents (.readPacket n) p0 ps → ps.length = noise.length + k + body.length + 1 →
    (∀ p ∈ p0 :: ps, p.rxValid = false) →
    ∃ t, runSteps (noise.length + k + body.length + 2) s = .next t ∧
      Stored t.asm s.asm 0 (0xFF :: 0xFF :: body) ∧
      t = (if total body % 256 = 255 then ended true .none 0 else failed .checksum) { s with
        cur := wordOf (.readPacket n), expect := n.toNat, cnt := n.toNat, waitc := 0, rd := s.rd + (noise.length + k + body.length),
        asm := t.asm, frameValid := decide (total body % 256 = 255),
        lenOk := decide (total body % 256 = 255 ∧ (body[1]?).map (·.toNat) = some (n.toNat - 4)),
        inputs := rest, pins := t.pins, clock := s.clock + (noise.length + k + body.length + 2) }

/-- R147 to R152, R159, R160, R164: `GET_REG` of width 1 or 2 with a transport that is always ready and a device that answers one byte a
cycle: the value is the data, little-endian, the status byte is recorded whatever it is, and a wrong sum is the failure `CHECKSUM`
with `LASTERR` unchanged. `send` are the cycles up to `SWRX_A`, `q` that of `SWRX_B`, `arrive` those in which the answer arrives. -/
def Obligations.GetRegExchange : Prop :=
  ∀ (s : State) (id addr width rid length status lo hi chk : Byte) (p0 q r0 r1 : Pins) (send arrive : List Pins)
    (rest : List Event), s.cfg.Legal → s.ph = .idle → InRange s.cfg (.getReg id addr width) → rid ≠ 0xFF →
    s.inputs = cycles (p0 :: (send ++ q :: (arrive ++ [r0, r1]))) ++ rest →
    Presents (.getReg id addr width) p0 (send ++ q :: (arrive ++ [r0, r1])) →
    send.length = 11 → (∀ p ∈ send, p.txReady = true) → q.rxValid = false → r0.rxValid = false → r1.rxValid = false →
    (∀ p ∈ arrive, p.rxValid = true) →
    arrive.map (·.rxData) = [0xFF, 0xFF, rid, length, status, lo] ++ (if width = 1 then [chk] else [hi, chk]) →
    ∃ t, runSteps (width.toNat + 21) s = .next t ∧
      t.txlog = s.txlog ++ request8 id s.cfg.instRead addr width ∧
      t.dir = .receive ∧ t.txEn = false ∧ t.rxEn = true ∧ t.baud = s.baud ∧ t.cnt = width.toNat + 6 ∧
      t.ph = .idle ∧ t.rspValid = true ∧
      (total ([rid, length, status, lo] ++ (if width = 1 then [chk] else [hi, chk])) % 256 = 255 →
        t.rspOk = true ∧ t.rspKind = .none ∧ t.rspValue = (if width = 1 then 0#8 ++ lo else hi ++ lo) ∧ t.lasterr = status ∧
        t.frameValid = true ∧ t.lenOk = decide (length.toNat = width.toNat + 2)) ∧
      (total ([rid, length, status, lo] ++ (if width = 1 then [chk] else [hi, chk])) % 256 ≠ 255 →
        t.rspOk = false ∧ t.rspKind = .checksum ∧ t.rspValue = 0xFFFF ∧ t.lasterr = s.lasterr ∧ t.frameValid = false ∧
        t.lenOk = false)

/-- R144, for a 1-byte value: the bytes that `BUILD_WRITE id, a, v` sends, delivered to the block's own receiver after the command, are read
back by `READ_PACKET 8` as the same id, address and value. The frame on the line is delivered in one event (assumption log 5). -/
def Obligations.ByteWriteRoundTrip : Prop :=
  ∀ (s : State) (id addr val : Byte) (p0 r0 : Pins) (send read : List Pins) (rest : List Event), s.cfg.Legal → s.ph = .idle →
    id ≠ 0xFF →
    s.inputs = cycles (p0 :: send) ++
      .line [0xFF, 0xFF, id, 4, s.cfg.instWrite, addr, val, ~~~(id + 4 + s.cfg.instWrite + addr + val)] :: cycles (r0 :: read) ++ rest →
    Presents (.buildWrite false id addr val) p0 send → Presents (.readPacket 8) r0 read →
    send.length = 12 → read.length = 9 → (∀ p ∈ send, p.txReady = true) → (∀ p ∈ p0 :: send ++ r0 :: read, p.rxValid = false) →
    ∃ t, runSteps 24 s = .next t ∧
      t.txlog = s.txlog ++ [0xFF, 0xFF, id, 4, s.cfg.instWrite, addr, val, ~~~(id + 4 + s.cfg.instWrite + addr + val)] ∧
      t.ph = .idle ∧ t.rspValid = true ∧ t.rspOk = true ∧ t.frameValid = true ∧ t.lenOk = true ∧ t.cnt = 8 ∧
      Memory.read t.asm 2 = some id ∧ Memory.read t.asm 4 = some s.cfg.instWrite ∧ Memory.read t.asm 5 = some addr ∧
      Memory.read t.asm 6 = some val

/-- R144, for a 2-byte value: `ASM[6] + 256 * ASM[7]` is the value. `READ_PACKET 9` needs a `CAP_DEPTH` of 9 (R65). The frame on the line
is delivered in one event (assumption log 5). -/
def Obligations.WordWriteRoundTrip : Prop :=
  ∀ (s : State) (id addr : Byte) (val : Word16) (p0 r0 : Pins) (send read : List Pins) (rest : List Event), s.cfg.Legal →
    9 ≤ s.cfg.capDepth → s.ph = .idle → id ≠ 0xFF →
    s.inputs = cycles (p0 :: send) ++
      .line (request9 id s.cfg.instWrite addr (low val) (high val)) :: cycles (r0 :: read) ++ rest →
    Presents (.buildWrite2 false id addr val) p0 send → Presents (.readPacket 9) r0 read →
    send.length = 13 → read.length = 10 → (∀ p ∈ send, p.txReady = true) → (∀ p ∈ p0 :: send ++ r0 :: read, p.rxValid = false) →
    ∃ t, runSteps 26 s = .next t ∧
      t.txlog = s.txlog ++ request9 id s.cfg.instWrite addr (low val) (high val) ∧
      t.ph = .idle ∧ t.rspValid = true ∧ t.rspOk = true ∧ t.frameValid = true ∧ t.lenOk = true ∧ t.cnt = 9 ∧
      Memory.read t.asm 2 = some id ∧ Memory.read t.asm 4 = some s.cfg.instWrite ∧ Memory.read t.asm 5 = some addr ∧
      ∃ lo hi, Memory.read t.asm 6 = some lo ∧ Memory.read t.asm 7 = some hi ∧ lo.toNat + 256 * hi.toNat = val.toNat

/-- R120, R121, R203: a reader that finds nothing takes exactly `WAIT_BUDGET` empty polls and fails with `TIMEOUT` on the next, if the
line is silent or the receiver is off; it changes nothing but `WAITC` and the response. -/
def Obligations.SilentReadTimesOutExactly : Prop :=
  ∀ (s : State) (ps : List Pins) (rest : List Event), s.ph = .read → s.wr ≤ s.rd → s.ovf = false → s.waitc = 0 →
    s.inputs = cycles ps ++ rest → NoReset ps → ps.length = s.cfg.waitBudget + 1 →
    ((∀ p ∈ ps, p.rxValid = false) ∨ s.rxEn = false) →
    (∀ k, 0 < k → k ≤ s.cfg.waitBudget → ∃ u, runSteps k s = .next u ∧ u.ph = .read ∧ u.waitc = k ∧ u.rspValid = false) ∧
    ∃ t, runSteps (s.cfg.waitBudget + 1) s = .next t ∧
      t = failed .timeout { s with
        waitc := s.cfg.waitBudget, rxin := s.rxin ++ delivered ps, inputs := rest, pins := t.pins,
        clock := s.clock + (s.cfg.waitBudget + 1) }

/-- R119, R195 (b): with `OVF` set and the buffer drained, every read fails with `OVERFLOW` at once and leaves `OVF` and the buffer as they
are, so the next read fails the same way. -/
def Obligations.OverflowPersists : Prop :=
  ∀ (s : State) (n : Byte) (p0 p1 : Pins) (rest : List Event), s.ph = .idle → s.wr ≤ s.rd → s.ovf = true →
    InRange s.cfg (.readPacket n) → s.inputs = cycles [p0, p1] ++ rest → Presents (.readPacket n) p0 [p1] →
    p0.rxValid = false → p1.rxValid = false →
    runSteps 2 s = .next (failed .overflow { s with
      cur := wordOf (.readPacket n), expect := n.toNat, cnt := 0, waitc := 0, frameValid := false, lenOk := false,
      inputs := rest, pins := p1, clock := s.clock + 2 })

/-- R121: whatever arrives, a read leaves the phase `READ` within `(CAP_DEPTH - RD0) * (WAIT_BUDGET + 1) + WAIT_BUDGET + 1` steps. -/
def Obligations.EveryReadEndsWithinItsBound : Prop :=
  ∀ (s : State) (ps : List Pins) (rest : List Event), Inv s → s.ph = .read → s.inputs = cycles ps ++ rest → NoReset ps →
    ps.length = (s.cfg.capDepth - s.rd) * (s.cfg.waitBudget + 1) + s.cfg.waitBudget + 1 →
    ∃ k t, k ≤ ps.length ∧ runSteps k s = .next t ∧ t.ph ≠ .read

/-- R199, R205: from every state of the invariant a command in progress ends, with a response, when the transport is ready often enough
(11 times are enough for the two steps of a switch and 9 bytes) and then enough cycles follow. -/
def Obligations.EveryCommandEnds : Prop :=
  ∀ (s : State) (ps qs : List Pins) (rest : List Event), Inv s → s.ph ≠ .idle → s.inputs = cycles (ps ++ qs) ++ rest →
    NoReset (ps ++ qs) → 11 ≤ readyCount ps → qs.length = (s.cfg.capDepth + 1) * (s.cfg.waitBudget + 1) + 3 →
    ∃ k t, 0 < k ∧ k ≤ (ps ++ qs).length ∧ runSteps k s = .next t ∧ t.ph = .idle ∧ t.rspValid = true

/-- R81 (a): `SET_REG` and `BUILD_WRITE` with `all = 0`, and `SET_REG2` and `BUILD_WRITE2`, have the same effect on everything but `CUR`, now
and in every later step, whatever the environment does. -/
def Obligations.SetRegActsAsBuildWrite : Prop :=
  ∀ (s : State) (id addr : Byte), s.ph = .idle →
    (∀ val : Byte, ∃ t u, exec (.setReg id addr val) s = .next t ∧ exec (.buildWrite false id addr val) s = .next u ∧
      ∀ k, SameOutcomeButCur (runSteps k t) (runSteps k u)) ∧
    (∀ val : Word16, ∃ t u, exec (.setReg2 id addr val) s = .next t ∧ exec (.buildWrite2 false id addr val) s = .next u ∧
      ∀ k, SameOutcomeButCur (runSteps k t) (runSteps k u))

/-- R94, R101: in `SHARED` mode `SW_ALL_TX` has the same effect on everything but `CUR` as `SW_TX` with any id. -/
def Obligations.SwAllTxActsAsSwTxWhenShared : Prop :=
  ∀ (s : State) (id : Byte), s.ph = .idle → s.cfg.dirMode = .shared → id ≠ 0xFF →
    ∃ t u, exec .swAllTx s = .next t ∧ exec (.swTx id) s = .next u ∧ ∀ k, SameOutcomeButCur (runSteps k t) (runSteps k u)

/-! ## Invariants -/

/-- The invariant holds after reset, for every legal value of the parameters and every environment. That the parameters are part of the
state, and their value in `State.reset`, is the model's choice (assumption log 1, 2). -/
def Obligations.ResetHasTheInvariant : Prop :=
  (∀ p trace, p.Legal → Inv (State.resetWith p trace)) ∧ Inv State.reset

/-- Every step from a state with the invariant gives a state with it. -/
def Obligations.StepKeepsTheInvariant : Prop := ∀ s t : State, Inv s → step s = .next t → Inv t

/-- R32: in a state with the invariant no step stops: no rule reads a byte of an array that was not written, no index is outside its
array, and the selector table has every id that is asked for. -/
def Obligations.NoStepStops : Prop := ∀ s : State, Inv s → ∃ t, step s = .next t

/-- R31: every state reached from reset, for every legal value of the parameters and every environment, has the eight clauses (a)
to (h), which the spec derives from the phase rules. The invariant `Inv`, which has seven of them as clauses and implies (d), is what a
step keeps. -/
def Obligations.ReachableStatesAreSafe : Prop :=
  ∀ p trace k t, p.Legal → runSteps k (State.resetWith p trace) = .next t → Safe t

/-- R87, R143: in every state reached from reset the frame that is being sent satisfies the checksum invariant, which the spec derives
from R133. The clause `frameSummed` of `Inv` is what a step keeps. -/
def Obligations.EmittedFramesSumTo255 : Prop :=
  ∀ p trace k t, p.Legal → runSteps k (State.resetWith p trace) = .next t → t.ph = .send →
    ∃ l, readBytes .txbuf t 2 (t.txlen - 2) = .ok l ∧ l.length = t.txlen - 2 ∧ total l % 256 = 255

/-- R13, R162: in a state with the invariant each of the 18 output ports shows its register or its function of the registers; the codes on
`rsp_kind` are those of R162; the frame window shows `ASM` below `CNT` and `0x00` elsewhere, `tx_data` the byte `TXBUF[TXPOS]` in `SEND`
and `0x00` elsewhere, and neither ever shows a byte that was not written. Never are both enables shown, and an enable agrees with `dir`
(R31). -/
def Obligations.OutputsShowOnlyWrittenBytes : Prop :=
  ∀ (s : State) (idx : Byte), Inv s →
    ((outputs s idx).cmdReady = true ↔ s.ph = .idle) ∧
    (outputs s idx).rspValid = s.rspValid ∧ (outputs s idx).rspOk = s.rspOk ∧
    (outputs s idx).rspKind.toNat = codeOf s.rspKind ∧ (outputs s idx).rspValue = s.rspValue ∧
    (∃ b, (outputs s idx).frmByte = some b ∧ (s.cnt ≤ idx.toNat → b = 0) ∧
      (idx.toNat < s.cnt → Memory.read s.asm idx.toNat = some b)) ∧
    (outputs s idx).frmCnt.toNat = s.cnt ∧ (outputs s idx).frmValid = s.frameValid ∧ (outputs s idx).lenOk = s.lenOk ∧
    (outputs s idx).lastErr = s.lasterr ∧ (outputs s idx).ovf = s.ovf ∧
    ((outputs s idx).txValid = true ↔ s.ph = .send) ∧
    (∃ b, (outputs s idx).txData = some b ∧ (s.ph ≠ .send → b = 0) ∧ (s.ph = .send → Memory.read s.txbuf s.txpos = some b)) ∧
    ((outputs s idx).dir = 1 ↔ s.dir = .transmit) ∧ ((outputs s idx).dir = 0 ↔ s.dir = .receive) ∧
    (outputs s idx).dirTxEn = s.txEn ∧ (outputs s idx).dirRxEn = s.rxEn ∧
    (outputs s idx).auxSel = s.auxSel ∧ (outputs s idx).auxSel.toNat < 2 ^ s.cfg.selW ∧ (outputs s idx).baudCfg = s.baud ∧
    ¬ ((outputs s idx).dirTxEn = true ∧ (outputs s idx).dirRxEn = true) ∧
    ((outputs s idx).txValid = true → (outputs s idx).dirTxEn = true) ∧
    ((outputs s idx).dirTxEn = true → (outputs s idx).dir = 1) ∧ ((outputs s idx).dirRxEn = true → (outputs s idx).dir = 0)

/-! ## The checksum -/

/-- R86: the checksum of a list of bytes, as a number; it does not depend on their order, and that of no bytes is `0xFF`. -/
def Obligations.ChecksumOfAList : Prop :=
  (∀ l : List Byte, (csum l).toNat = 255 - total l % 256) ∧ (∀ l k : List Byte, l.Perm k → csum l = csum k) ∧ csum [] = 0xFF

/-- R87: a byte is the checksum of a list exactly when the sum of both is 255 modulo 256. -/
def Obligations.ChecksumTestIsEquivalent : Prop :=
  ∀ (c : Byte) (l : List Byte), c = csum l ↔ (total l + c.toNat) % 256 = 255

/-- R91 (d), (e): a change of exactly one covered byte is always detected; a permutation of the covered bytes is not. -/
def Obligations.SingleChangesAreDetected : Prop :=
  (∀ (l k : List Byte) (b c : Byte), b ≠ c → frameSumOk (l ++ b :: k) = true → frameSumOk (l ++ c :: k) = false) ∧
  (∀ l k : List Byte, l.Perm k → frameSumOk l = frameSumOk k)

/-! ## The idle cycle -/

/-- R29, R30: an idle block to which no word is presented clears the response strobe and does nothing else; in the cycle around it a byte
that arrives is received, and nothing else changes. -/
def Obligations.IdleCycleOnlyClearsTheStrobe : Prop :=
  ∀ s : State, s.ph = .idle →
    (s.pins.cmdValid = false → engineStep s = .next { s with rspValid := false }) ∧
    (∀ p, EngineNext s p → p.cmdValid = false →
      ∃ m, Stored m s.cap s.wr (caught s [p]) ∧
        step s = .next { s with
          rspValid := false, cap := m, wr := s.wr + (caught s [p]).length,
          ovf := s.ovf || (s.rxEn && p.rxValid && decide (s.cfg.capDepth ≤ s.wr)), rxin := s.rxin ++ delivered [p],
          inputs := s.inputs.tail, pins := p, clock := s.clock + 1 })

end
end

