-- ==== Sys2Proof/Laws/Encoding.lean ====
section
/-! SUPPORT. The fields of a command word that was laid out field by field, and of a 16-bit value built from its bytes. -/

namespace Sys2Proof.Machine

section
variable (op : BitVec 4) (all : Bool) (id addr : Byte) (data : Word16)

@[simp] theorem fieldOp_commandWord : fieldOp (commandWord op all id addr data) = op := by
  apply BitVec.eq_of_getLsbD_eq
  intro i hi
  simp only [fieldOp, commandWord, BitVec.getLsbD_extractLsb', hi, BitVec.getLsbD_append, decide_true, Bool.true_and]
  interval_cases i <;> simp

@[simp] theorem fieldAll_commandWord : fieldAll (commandWord op all id addr data) = all := by
  simp only [fieldAll, commandWord, BitVec.getLsbD_append]
  simp

@[simp] theorem fieldRsv_commandWord : fieldRsv (commandWord op all id addr data) = 0 := by
  apply BitVec.eq_of_getLsbD_eq
  intro i hi
  simp only [fieldRsv, commandWord, BitVec.getLsbD_extractLsb', hi, BitVec.getLsbD_append, decide_true, Bool.true_and]
  interval_cases i <;> simp

@[simp] theorem fieldId_commandWord : fieldId (commandWord op all id addr data) = id := by
  apply BitVec.eq_of_getLsbD_eq
  intro i hi
  simp only [fieldId, commandWord, BitVec.getLsbD_extractLsb', hi, BitVec.getLsbD_append, decide_true, Bool.true_and]
  interval_cases i <;> simp

@[simp] theorem fieldAddr_commandWord : fieldAddr (commandWord op all id addr data) = addr := by
  apply BitVec.eq_of_getLsbD_eq
  intro i hi
  simp only [fieldAddr, commandWord, BitVec.getLsbD_extractLsb', hi, BitVec.getLsbD_append, decide_true, Bool.true_and]
  interval_cases i <;> simp

@[simp] theorem fieldData_commandWord : fieldData (commandWord op all id addr data) = data := by
  apply BitVec.eq_of_getLsbD_eq
  intro i hi
  simp only [fieldData, commandWord, BitVec.getLsbD_extractLsb', hi, BitVec.getLsbD_append, decide_true, Bool.true_and]
  interval_cases i <;> simp

theorem fieldDataLo_eq (w : Word40) : fieldDataLo w = lowByte (fieldData w) := by
  apply BitVec.eq_of_getLsbD_eq
  intro i hi
  simp only [fieldDataLo, lowByte, fieldData, BitVec.getLsbD_extractLsb', hi, decide_true, Bool.true_and]
  interval_cases i <;> simp

theorem fieldDataHi_eq (w : Word40) : fieldDataHi w = highByte (fieldData w) := by
  apply BitVec.eq_of_getLsbD_eq
  intro i hi
  simp only [fieldDataHi, highByte, fieldData, BitVec.getLsbD_extractLsb', hi, decide_true, Bool.true_and]
  interval_cases i <;> simp

@[simp] theorem fieldDataLo_commandWord : fieldDataLo (commandWord op all id addr data) = lowByte data := by
  simp [fieldDataLo_eq]

@[simp] theorem fieldDataHi_commandWord : fieldDataHi (commandWord op all id addr data) = highByte data := by
  simp [fieldDataHi_eq]

end

@[simp] theorem lowByte_zext16 (b : Byte) : lowByte (zext16 b) = b := by
  apply BitVec.eq_of_getLsbD_eq
  intro i hi
  simp only [lowByte, zext16, BitVec.getLsbD_extractLsb', hi, decide_true, Bool.true_and, BitVec.getLsbD_setWidth]
  interval_cases i <;> simp

@[simp] theorem highByte_zext16 (b : Byte) : highByte (zext16 b) = 0 := by
  apply BitVec.eq_of_getLsbD_eq
  intro i hi
  simp only [highByte, zext16, BitVec.getLsbD_extractLsb', hi, decide_true, Bool.true_and, BitVec.getLsbD_setWidth]
  interval_cases i <;> simp

@[simp] theorem lowByte_word16 (lo hi : Byte) : lowByte (word16 lo hi) = lo := by
  apply BitVec.eq_of_getLsbD_eq
  intro i h
  simp only [lowByte, word16, BitVec.getLsbD_extractLsb', h, decide_true, Bool.true_and, BitVec.getLsbD_append]
  interval_cases i <;> simp

@[simp] theorem highByte_word16 (lo hi : Byte) : highByte (word16 lo hi) = hi := by
  apply BitVec.eq_of_getLsbD_eq
  intro i h
  simp only [highByte, word16, BitVec.getLsbD_extractLsb', h, decide_true, Bool.true_and, BitVec.getLsbD_append]
  interval_cases i <;> simp

@[simp] theorem word16_low_high (v : Word16) : word16 (lowByte v) (highByte v) = v := by
  apply BitVec.eq_of_getLsbD_eq
  intro i h
  simp only [lowByte, highByte, word16, BitVec.getLsbD_extractLsb', BitVec.getLsbD_append]
  interval_cases i <;> simp

/-- The little-endian value as a number (spec/45_register_access_init.md R152): `lo + 256 * hi`. -/
theorem word16_toNat (lo hi : Byte) : (word16 lo hi).toNat = lo.toNat + 256 * hi.toNat := by
  have h1 := lo.isLt
  simp only [word16, BitVec.toNat_append, Nat.shiftLeft_eq]
  rw [← Nat.shiftLeft_eq, ← Nat.shiftLeft_add_eq_or_of_lt h1, Nat.shiftLeft_eq]
  omega

theorem zext16_toNat (b : Byte) : (zext16 b).toNat = b.toNat := by
  have := b.isLt
  simp only [zext16, BitVec.toNat_setWidth]
  omega

theorem zext16_lowByte {v : Word16} (h : highByte v = 0) : zext16 (lowByte v) = v := by
  conv_rhs => rw [← word16_low_high v, h]
  apply BitVec.eq_of_toNat_eq
  rw [zext16_toNat, word16_toNat]
  simp

/-- A word whose reserved bits are 0 is its fields laid out (spec/30_encoding.md R60). -/
theorem commandWord_fields {w : Word40} (h : fieldRsv w = 0) :
    commandWord (fieldOp w) (fieldAll w) (fieldId w) (fieldAddr w) (fieldData w) = w := by
  apply BitVec.eq_of_getLsbD_eq
  intro i hi
  have h32 := congrArg (fun v => v.getLsbD 0) h
  have h33 := congrArg (fun v => v.getLsbD 1) h
  have h34 := congrArg (fun v => v.getLsbD 2) h
  simp only [fieldRsv, BitVec.getLsbD_extractLsb'] at h32 h33 h34
  simp only [commandWord, fieldOp, fieldAll, fieldId, fieldAddr, fieldData, BitVec.getLsbD_extractLsb', BitVec.getLsbD_append]
  interval_cases i <;> simp_all

@[simp] theorem fieldOp_initWord (b : Word32) : fieldOp (initWord b) = opInit := by
  apply BitVec.eq_of_getLsbD_eq
  intro i hi
  simp only [fieldOp, initWord, opInit, BitVec.getLsbD_extractLsb', hi, BitVec.getLsbD_append, decide_true, Bool.true_and]
  interval_cases i <;> simp

@[simp] theorem fieldAll_initWord (b : Word32) : fieldAll (initWord b) = false := by
  simp only [fieldAll, initWord, BitVec.getLsbD_append]
  simp

@[simp] theorem fieldRsv_initWord (b : Word32) : fieldRsv (initWord b) = 0 := by
  apply BitVec.eq_of_getLsbD_eq
  intro i hi
  simp only [fieldRsv, initWord, BitVec.getLsbD_extractLsb', hi, BitVec.getLsbD_append, decide_true, Bool.true_and]
  interval_cases i <;> simp

@[simp] theorem fieldBaud_initWord (b : Word32) : fieldBaud (initWord b) = b := by
  apply BitVec.eq_of_getLsbD_eq
  intro i hi
  simp only [fieldBaud, initWord, BitVec.getLsbD_extractLsb', hi, BitVec.getLsbD_append, decide_true, Bool.true_and]
  rw [Nat.zero_add]
  simp [hi]

theorem initWord_fieldBaud {w : Word40} (hop : fieldOp w = opInit) (hall : fieldAll w = false) (hr : fieldRsv w = 0) :
    initWord (fieldBaud w) = w := by
  apply BitVec.eq_of_getLsbD_eq
  intro i hi
  have h32 := congrArg (fun v => v.getLsbD 0) hr
  have h33 := congrArg (fun v => v.getLsbD 1) hr
  have h34 := congrArg (fun v => v.getLsbD 2) hr
  have h36 := congrArg (fun v => v.getLsbD 0) hop
  have h37 := congrArg (fun v => v.getLsbD 1) hop
  have h38 := congrArg (fun v => v.getLsbD 2) hop
  have h39 := congrArg (fun v => v.getLsbD 3) hop
  simp only [fieldRsv, fieldOp, fieldAll, opInit, BitVec.getLsbD_extractLsb'] at h32 h33 h34 h36 h37 h38 h39 hall
  simp only [initWord, fieldBaud, BitVec.getLsbD_extractLsb', BitVec.getLsbD_append]
  interval_cases i <;> simp_all

end Sys2Proof.Machine
end

