-- ==== Sys2Proof/Laws/Memory.lean ====
section
/-! SUPPORT. The byte arrays: a read after a write, the canonical form, the bounds. -/

namespace Sys2Proof.Machine

open Safety

theorem Memory.read_write (m : Memory) (i j : Nat) (b : Byte) :
    Memory.read (Memory.write m i b) j = if j = i then some b else Memory.read m j := by
  induction m with
  | nil => simp [Memory.write, Memory.read]
  | cons c rest ih =>
    obtain ⟨a, x⟩ := c
    unfold Memory.write
    split_ifs with h1 h2 <;> simp only [Memory.read, ih] <;> split_ifs <;> simp_all

@[simp] theorem Memory.read_write_same (m : Memory) (i : Nat) (b : Byte) :
    Memory.read (Memory.write m i b) i = some b := by simp [Memory.read_write]

theorem Memory.read_write_other (m : Memory) {i j : Nat} (b : Byte) (h : j ≠ i) :
    Memory.read (Memory.write m i b) j = Memory.read m j := by simp [Memory.read_write, h]

theorem Memory.index_of_mem_write {m : Memory} {i : Nat} {b : Byte} {c : Host.Cell} (h : c ∈ Memory.write m i b) :
    c.1 = i ∨ c ∈ m := by
  induction m with
  | nil => simp_all [Memory.write]
  | cons d rest ih =>
    obtain ⟨a, x⟩ := d
    unfold Memory.write at h
    split_ifs at h with h1 h2
    · rcases List.mem_cons.1 h with rfl | h
      · exact .inl rfl
      · exact .inr h
    · rcases List.mem_cons.1 h with rfl | h
      · exact .inl rfl
      · exact .inr (List.mem_cons_of_mem _ h)
    · rcases List.mem_cons.1 h with rfl | h
      · exact .inr List.mem_cons_self
      · exact (ih h).imp_right (List.mem_cons_of_mem _)

/-- A write keeps the canonical form. -/
theorem Memory.wf_write {m : Memory} (i : Nat) (b : Byte) (h : Memory.wf m) : Memory.wf (Memory.write m i b) := by
  induction m with
  | nil => simp [Memory.write, Memory.wf]
  | cons c rest ih =>
    obtain ⟨a, x⟩ := c
    obtain ⟨ha, hr⟩ := List.pairwise_cons.1 h
    unfold Memory.write
    split_ifs with h1 h2
    · exact List.pairwise_cons.2 ⟨fun d hd => by
        rcases List.mem_cons.1 hd with rfl | hd
        · exact h1
        · exact lt_trans h1 (ha d hd), h⟩
    · exact List.pairwise_cons.2 ⟨fun d hd => by simpa [h2] using ha d hd, hr⟩
    · refine List.pairwise_cons.2 ⟨fun d hd => ?_, ih hr⟩
      rcases Memory.index_of_mem_write hd with hd | hd
      · simp only [hd]; omega
      · exact ha d hd

theorem Memory.wf_writeList {m : Memory} (l : List Byte) (i : Nat) (h : Memory.wf m) :
    Memory.wf (Memory.writeList m i l) := by
  induction l generalizing m i with
  | nil => exact h
  | cons b rest ih => exact ih (i + 1) (Memory.wf_write i b h)

theorem Memory.read_writeList (m : Memory) (l : List Byte) (i j : Nat) :
    Memory.read (Memory.writeList m i l) j = if j < i then Memory.read m j else
      if h : j - i < l.length then some l[j - i] else Memory.read m j := by
  induction l generalizing m i with
  | nil => simp [Memory.writeList]
  | cons b rest ih =>
    rw [Memory.writeList, ih, Memory.read_write]
    rcases Nat.lt_trichotomy j i with h | h | h
    · simp [h, Nat.lt_succ_of_lt h, Nat.ne_of_lt h]
    · subst h; simp
    · have h1 : ¬ j < i + 1 := by omega
      have h2 : ¬ j < i := by omega
      have h3 : j ≠ i := by omega
      obtain ⟨k, rfl⟩ : ∃ k, j = i + 1 + k := ⟨j - (i + 1), by omega⟩
      have h4 : i + 1 + k - (i + 1) = k := by omega
      have h5 : i + 1 + k - i = k + 1 := by omega
      simp [h2, h3, h4, h5]
      exact fun h _ => absurd h (by omega)

theorem indicesBelow_write {m : Memory} {i n : Nat} {b : Byte} (h : IndicesBelow m n) (hi : i < n) :
    IndicesBelow (Memory.write m i b) n := fun c hc => by
  rcases Memory.index_of_mem_write hc with hc | hc
  · omega
  · exact h c hc

theorem indicesBelow_writeList {m : Memory} {n : Nat} (l : List Byte) (i : Nat) (h : IndicesBelow m n)
    (hi : i + l.length ≤ n) : IndicesBelow (Memory.writeList m i l) n := by
  induction l generalizing m i with
  | nil => exact h
  | cons b rest ih =>
    simp only [List.length_cons] at hi
    exact ih (i + 1) (indicesBelow_write h (by omega)) (by omega)

theorem writtenBelow_write {m : Memory} {n : Nat} (i : Nat) (b : Byte) (h : WrittenBelow m n) :
    WrittenBelow (Memory.write m i b) n := fun j hj => by
  rw [Memory.read_write]; split
  · rfl
  · exact h j hj

/-- A write at the end extends the written part. -/
theorem writtenBelow_write_succ {m : Memory} {n : Nat} (b : Byte) (h : WrittenBelow m n) :
    WrittenBelow (Memory.write m n b) (n + 1) := fun j hj => by
  rw [Memory.read_write]; split
  · rfl
  · exact h j (by omega)

theorem writtenBelow_writeList (m : Memory) (l : List Byte) : WrittenBelow (Memory.writeList m 0 l) l.length :=
  fun j hj => by rw [Memory.read_writeList]; simp [hj]

/-- The window of an array is the list that the array reads as from index 2 on. -/
theorem windowBytes_eq_of_read {m : Memory} {n : Nat} {l : List Byte} (hl : l.length = n - 2)
    (h : ∀ k, k < l.length → Memory.read m (2 + k) = l[k]?) : windowBytes m n = l := by
  rw [windowBytes, ← hl, List.filterMap_congr fun k hk => h k (List.mem_range.1 hk)]
  clear hl h
  induction l with
  | nil => rfl
  | cons a l ih => simpa [List.range_succ_eq_map, List.filterMap_map, Function.comp_def] using ih

/-- The window of an array that holds the bytes `l` from index 0 on is `l` without its first two bytes. -/
theorem windowBytes_writeList (m : Memory) (l : List Byte) : windowBytes (Memory.writeList m 0 l) l.length = l.drop 2 :=
  windowBytes_eq_of_read List.length_drop fun k hk => by
    rw [List.length_drop] at hk
    have hk' : 2 + k < l.length := by omega
    simp [Memory.read_writeList, hk']

/-- Two arrays in canonical form that read the same are the same data. -/
theorem Memory.ext_of_read {m n : Memory} (hm : Memory.wf m) (hn : Memory.wf n)
    (h : ∀ i, Memory.read m i = Memory.read n i) : m = n := by
  have gone : ∀ {l : Memory} {a : Nat}, (∀ c ∈ l, a < c.1) → ∀ i, i ≤ a → Memory.read l i = none := by
    intro l a hl i hi
    induction l with
    | nil => rfl
    | cons c rest ih =>
      have := hl c (by simp)
      rw [Memory.read, if_neg (by omega)]
      exact ih fun d hd => hl d (by simp [hd])
  induction m generalizing n with
  | nil =>
    cases n with
    | nil => rfl
    | cons c rest => simpa [Memory.read] using h c.1
  | cons c rest ih =>
    obtain ⟨a, x⟩ := c
    obtain ⟨ha, hr⟩ := List.pairwise_cons.1 hm
    cases n with
    | nil => simpa [Memory.read] using h a
    | cons d rest' =>
      obtain ⟨a', x'⟩ := d
      obtain ⟨ha', hr'⟩ := List.pairwise_cons.1 hn
      have haa : a = a' := by
        rcases Nat.lt_trichotomy a a' with hlt | he | hlt
        · have h1 := h a
          rw [Memory.read, if_pos rfl, Memory.read, if_neg (by omega), gone ha' a (by omega)] at h1
          simp at h1
        · exact he
        · have h1 := h a'
          rw [Memory.read, if_neg (by omega), gone ha a' (by omega), Memory.read, if_pos rfl] at h1
          simp at h1
      subst haa
      have hx : x = x' := by simpa [Memory.read] using h a
      subst hx
      rw [ih hr hr' fun i => ?_]
      by_cases hi : i = a
      · subst hi; rw [gone ha i le_rfl, gone ha' i le_rfl]
      · simpa [Memory.read, hi] using h i

/-- The arrays have the canonical form right after reset. -/
theorem reset_arrays_wf : Memory.wf State.reset.cap ∧ Memory.wf State.reset.asm ∧ Memory.wf State.reset.txbuf :=
  ⟨List.Pairwise.nil, List.Pairwise.nil, List.Pairwise.nil⟩

end Sys2Proof.Machine
end

