-- ==== Sys2Proof/Laws/State.lean ====
section
/-! SUPPORT. One lemma per field per update of the state, true by rfl, so that no later proof unfolds a record update. -/

namespace Sys2Proof.Machine

variable (s : State)

@[simp] theorem clearStrobe_dir : (clearStrobe s).dir = s.dir := rfl
@[simp] theorem clearStrobe_txEn : (clearStrobe s).txEn = s.txEn := rfl
@[simp] theorem clearStrobe_rxEn : (clearStrobe s).rxEn = s.rxEn := rfl
@[simp] theorem clearStrobe_auxSel : (clearStrobe s).auxSel = s.auxSel := rfl
@[simp] theorem clearStrobe_baud : (clearStrobe s).baud = s.baud := rfl
@[simp] theorem clearStrobe_lasterr : (clearStrobe s).lasterr = s.lasterr := rfl
@[simp] theorem clearStrobe_cap : (clearStrobe s).cap = s.cap := rfl
@[simp] theorem clearStrobe_wr : (clearStrobe s).wr = s.wr := rfl
@[simp] theorem clearStrobe_rd : (clearStrobe s).rd = s.rd := rfl
@[simp] theorem clearStrobe_ovf : (clearStrobe s).ovf = s.ovf := rfl
@[simp] theorem clearStrobe_asm : (clearStrobe s).asm = s.asm := rfl
@[simp] theorem clearStrobe_cnt : (clearStrobe s).cnt = s.cnt := rfl
@[simp] theorem clearStrobe_expect : (clearStrobe s).expect = s.expect := rfl
@[simp] theorem clearStrobe_waitc : (clearStrobe s).waitc = s.waitc := rfl
@[simp] theorem clearStrobe_frameValid : (clearStrobe s).frameValid = s.frameValid := rfl
@[simp] theorem clearStrobe_lenOk : (clearStrobe s).lenOk = s.lenOk := rfl
@[simp] theorem clearStrobe_txbuf : (clearStrobe s).txbuf = s.txbuf := rfl
@[simp] theorem clearStrobe_txlen : (clearStrobe s).txlen = s.txlen := rfl
@[simp] theorem clearStrobe_txpos : (clearStrobe s).txpos = s.txpos := rfl
@[simp] theorem clearStrobe_ph : (clearStrobe s).ph = s.ph := rfl
@[simp] theorem clearStrobe_cur : (clearStrobe s).cur = s.cur := rfl
@[simp] theorem clearStrobe_rspOk : (clearStrobe s).rspOk = s.rspOk := rfl
@[simp] theorem clearStrobe_rspKind : (clearStrobe s).rspKind = s.rspKind := rfl
@[simp] theorem clearStrobe_rspValue : (clearStrobe s).rspValue = s.rspValue := rfl
@[simp] theorem clearStrobe_rspValid : (clearStrobe s).rspValid = false := rfl
@[simp] theorem clearStrobe_txlog : (clearStrobe s).txlog = s.txlog := rfl
@[simp] theorem clearStrobe_rxin : (clearStrobe s).rxin = s.rxin := rfl
@[simp] theorem clearStrobe_cfg : (clearStrobe s).cfg = s.cfg := rfl
@[simp] theorem clearStrobe_inputs : (clearStrobe s).inputs = s.inputs := rfl
@[simp] theorem clearStrobe_pins : (clearStrobe s).pins = s.pins := rfl
@[simp] theorem clearStrobe_clock : (clearStrobe s).clock = s.clock := rfl

@[simp] theorem complete_dir (ok : Bool) (kind : Kind) (value : Word16) : (complete ok kind value s).dir = s.dir := rfl
@[simp] theorem complete_txEn (ok : Bool) (kind : Kind) (value : Word16) : (complete ok kind value s).txEn = s.txEn := rfl
@[simp] theorem complete_rxEn (ok : Bool) (kind : Kind) (value : Word16) : (complete ok kind value s).rxEn = s.rxEn := rfl
@[simp] theorem complete_auxSel (ok : Bool) (kind : Kind) (value : Word16) : (complete ok kind value s).auxSel = s.auxSel := rfl
@[simp] theorem complete_baud (ok : Bool) (kind : Kind) (value : Word16) : (complete ok kind value s).baud = s.baud := rfl
@[simp] theorem complete_lasterr (ok : Bool) (kind : Kind) (value : Word16) : (complete ok kind value s).lasterr = s.lasterr := rfl
@[simp] theorem complete_cap (ok : Bool) (kind : Kind) (value : Word16) : (complete ok kind value s).cap = s.cap := rfl
@[simp] theorem complete_wr (ok : Bool) (kind : Kind) (value : Word16) : (complete ok kind value s).wr = s.wr := rfl
@[simp] theorem complete_rd (ok : Bool) (kind : Kind) (value : Word16) : (complete ok kind value s).rd = s.rd := rfl
@[simp] theorem complete_ovf (ok : Bool) (kind : Kind) (value : Word16) : (complete ok kind value s).ovf = s.ovf := rfl
@[simp] theorem complete_asm (ok : Bool) (kind : Kind) (value : Word16) : (complete ok kind value s).asm = s.asm := rfl
@[simp] theorem complete_cnt (ok : Bool) (kind : Kind) (value : Word16) : (complete ok kind value s).cnt = s.cnt := rfl
@[simp] theorem complete_expect (ok : Bool) (kind : Kind) (value : Word16) : (complete ok kind value s).expect = s.expect := rfl
@[simp] theorem complete_waitc (ok : Bool) (kind : Kind) (value : Word16) : (complete ok kind value s).waitc = s.waitc := rfl
@[simp] theorem complete_frameValid (ok : Bool) (kind : Kind) (value : Word16) : (complete ok kind value s).frameValid = s.frameValid := rfl
@[simp] theorem complete_lenOk (ok : Bool) (kind : Kind) (value : Word16) : (complete ok kind value s).lenOk = s.lenOk := rfl
@[simp] theorem complete_txbuf (ok : Bool) (kind : Kind) (value : Word16) : (complete ok kind value s).txbuf = s.txbuf := rfl
@[simp] theorem complete_txlen (ok : Bool) (kind : Kind) (value : Word16) : (complete ok kind value s).txlen = s.txlen := rfl
@[simp] theorem complete_txpos (ok : Bool) (kind : Kind) (value : Word16) : (complete ok kind value s).txpos = s.txpos := rfl
@[simp] theorem complete_ph (ok : Bool) (kind : Kind) (value : Word16) : (complete ok kind value s).ph = .idle := rfl
@[simp] theorem complete_cur (ok : Bool) (kind : Kind) (value : Word16) : (complete ok kind value s).cur = s.cur := rfl
@[simp] theorem complete_rspOk (ok : Bool) (kind : Kind) (value : Word16) : (complete ok kind value s).rspOk = ok := rfl
@[simp] theorem complete_rspKind (ok : Bool) (kind : Kind) (value : Word16) : (complete ok kind value s).rspKind = kind := rfl
@[simp] theorem complete_rspValue (ok : Bool) (kind : Kind) (value : Word16) : (complete ok kind value s).rspValue = value := rfl
@[simp] theorem complete_rspValid (ok : Bool) (kind : Kind) (value : Word16) : (complete ok kind value s).rspValid = true := rfl
@[simp] theorem complete_txlog (ok : Bool) (kind : Kind) (value : Word16) : (complete ok kind value s).txlog = s.txlog := rfl
@[simp] theorem complete_rxin (ok : Bool) (kind : Kind) (value : Word16) : (complete ok kind value s).rxin = s.rxin := rfl
@[simp] theorem complete_cfg (ok : Bool) (kind : Kind) (value : Word16) : (complete ok kind value s).cfg = s.cfg := rfl
@[simp] theorem complete_inputs (ok : Bool) (kind : Kind) (value : Word16) : (complete ok kind value s).inputs = s.inputs := rfl
@[simp] theorem complete_pins (ok : Bool) (kind : Kind) (value : Word16) : (complete ok kind value s).pins = s.pins := rfl
@[simp] theorem complete_clock (ok : Bool) (kind : Kind) (value : Word16) : (complete ok kind value s).clock = s.clock := rfl

@[simp] theorem succeed_dir (value : Word16) : (succeed value s).dir = s.dir := rfl
@[simp] theorem succeed_txEn (value : Word16) : (succeed value s).txEn = s.txEn := rfl
@[simp] theorem succeed_rxEn (value : Word16) : (succeed value s).rxEn = s.rxEn := rfl
@[simp] theorem succeed_auxSel (value : Word16) : (succeed value s).auxSel = s.auxSel := rfl
@[simp] theorem succeed_baud (value : Word16) : (succeed value s).baud = s.baud := rfl
@[simp] theorem succeed_lasterr (value : Word16) : (succeed value s).lasterr = s.lasterr := rfl
@[simp] theorem succeed_cap (value : Word16) : (succeed value s).cap = s.cap := rfl
@[simp] theorem succeed_wr (value : Word16) : (succeed value s).wr = s.wr := rfl
@[simp] theorem succeed_rd (value : Word16) : (succeed value s).rd = s.rd := rfl
@[simp] theorem succeed_ovf (value : Word16) : (succeed value s).ovf = s.ovf := rfl
@[simp] theorem succeed_asm (value : Word16) : (succeed value s).asm = s.asm := rfl
@[simp] theorem succeed_cnt (value : Word16) : (succeed value s).cnt = s.cnt := rfl
@[simp] theorem succeed_expect (value : Word16) : (succeed value s).expect = s.expect := rfl
@[simp] theorem succeed_waitc (value : Word16) : (succeed value s).waitc = s.waitc := rfl
@[simp] theorem succeed_frameValid (value : Word16) : (succeed value s).frameValid = s.frameValid := rfl
@[simp] theorem succeed_lenOk (value : Word16) : (succeed value s).lenOk = s.lenOk := rfl
@[simp] theorem succeed_txbuf (value : Word16) : (succeed value s).txbuf = s.txbuf := rfl
@[simp] theorem succeed_txlen (value : Word16) : (succeed value s).txlen = s.txlen := rfl
@[simp] theorem succeed_txpos (value : Word16) : (succeed value s).txpos = s.txpos := rfl
@[simp] theorem succeed_ph (value : Word16) : (succeed value s).ph = .idle := rfl
@[simp] theorem succeed_cur (value : Word16) : (succeed value s).cur = s.cur := rfl
@[simp] theorem succeed_rspOk (value : Word16) : (succeed value s).rspOk = true := rfl
@[simp] theorem succeed_rspKind (value : Word16) : (succeed value s).rspKind = .none := rfl
@[simp] theorem succeed_rspValue (value : Word16) : (succeed value s).rspValue = value := rfl
@[simp] theorem succeed_rspValid (value : Word16) : (succeed value s).rspValid = true := rfl
@[simp] theorem succeed_txlog (value : Word16) : (succeed value s).txlog = s.txlog := rfl
@[simp] theorem succeed_rxin (value : Word16) : (succeed value s).rxin = s.rxin := rfl
@[simp] theorem succeed_cfg (value : Word16) : (succeed value s).cfg = s.cfg := rfl
@[simp] theorem succeed_inputs (value : Word16) : (succeed value s).inputs = s.inputs := rfl
@[simp] theorem succeed_pins (value : Word16) : (succeed value s).pins = s.pins := rfl
@[simp] theorem succeed_clock (value : Word16) : (succeed value s).clock = s.clock := rfl

@[simp] theorem raiseFail_dir (kind : Kind) : (raiseFail kind s).dir = s.dir := rfl
@[simp] theorem raiseFail_txEn (kind : Kind) : (raiseFail kind s).txEn = s.txEn := rfl
@[simp] theorem raiseFail_rxEn (kind : Kind) : (raiseFail kind s).rxEn = s.rxEn := rfl
@[simp] theorem raiseFail_auxSel (kind : Kind) : (raiseFail kind s).auxSel = s.auxSel := rfl
@[simp] theorem raiseFail_baud (kind : Kind) : (raiseFail kind s).baud = s.baud := rfl
@[simp] theorem raiseFail_lasterr (kind : Kind) : (raiseFail kind s).lasterr = s.lasterr := rfl
@[simp] theorem raiseFail_cap (kind : Kind) : (raiseFail kind s).cap = s.cap := rfl
@[simp] theorem raiseFail_wr (kind : Kind) : (raiseFail kind s).wr = s.wr := rfl
@[simp] theorem raiseFail_rd (kind : Kind) : (raiseFail kind s).rd = s.rd := rfl
@[simp] theorem raiseFail_ovf (kind : Kind) : (raiseFail kind s).ovf = s.ovf := rfl
@[simp] theorem raiseFail_asm (kind : Kind) : (raiseFail kind s).asm = s.asm := rfl
@[simp] theorem raiseFail_cnt (kind : Kind) : (raiseFail kind s).cnt = s.cnt := rfl
@[simp] theorem raiseFail_expect (kind : Kind) : (raiseFail kind s).expect = s.expect := rfl
@[simp] theorem raiseFail_waitc (kind : Kind) : (raiseFail kind s).waitc = s.waitc := rfl
@[simp] theorem raiseFail_frameValid (kind : Kind) : (raiseFail kind s).frameValid = s.frameValid := rfl
@[simp] theorem raiseFail_lenOk (kind : Kind) : (raiseFail kind s).lenOk = s.lenOk := rfl
@[simp] theorem raiseFail_txbuf (kind : Kind) : (raiseFail kind s).txbuf = s.txbuf := rfl
@[simp] theorem raiseFail_txlen (kind : Kind) : (raiseFail kind s).txlen = s.txlen := rfl
@[simp] theorem raiseFail_txpos (kind : Kind) : (raiseFail kind s).txpos = s.txpos := rfl
@[simp] theorem raiseFail_ph (kind : Kind) : (raiseFail kind s).ph = .idle := rfl
@[simp] theorem raiseFail_cur (kind : Kind) : (raiseFail kind s).cur = s.cur := rfl
@[simp] theorem raiseFail_rspOk (kind : Kind) : (raiseFail kind s).rspOk = false := rfl
@[simp] theorem raiseFail_rspKind (kind : Kind) : (raiseFail kind s).rspKind = kind := rfl
@[simp] theorem raiseFail_rspValue (kind : Kind) : (raiseFail kind s).rspValue = 0xFFFF := rfl
@[simp] theorem raiseFail_rspValid (kind : Kind) : (raiseFail kind s).rspValid = true := rfl
@[simp] theorem raiseFail_txlog (kind : Kind) : (raiseFail kind s).txlog = s.txlog := rfl
@[simp] theorem raiseFail_rxin (kind : Kind) : (raiseFail kind s).rxin = s.rxin := rfl
@[simp] theorem raiseFail_cfg (kind : Kind) : (raiseFail kind s).cfg = s.cfg := rfl
@[simp] theorem raiseFail_inputs (kind : Kind) : (raiseFail kind s).inputs = s.inputs := rfl
@[simp] theorem raiseFail_pins (kind : Kind) : (raiseFail kind s).pins = s.pins := rfl
@[simp] theorem raiseFail_clock (kind : Kind) : (raiseFail kind s).clock = s.clock := rfl

@[simp] theorem emptyCapture_dir : (emptyCapture s).dir = s.dir := rfl
@[simp] theorem emptyCapture_txEn : (emptyCapture s).txEn = s.txEn := rfl
@[simp] theorem emptyCapture_rxEn : (emptyCapture s).rxEn = s.rxEn := rfl
@[simp] theorem emptyCapture_auxSel : (emptyCapture s).auxSel = s.auxSel := rfl
@[simp] theorem emptyCapture_baud : (emptyCapture s).baud = s.baud := rfl
@[simp] theorem emptyCapture_lasterr : (emptyCapture s).lasterr = s.lasterr := rfl
@[simp] theorem emptyCapture_cap : (emptyCapture s).cap = s.cap := rfl
@[simp] theorem emptyCapture_wr : (emptyCapture s).wr = 0 := rfl
@[simp] theorem emptyCapture_rd : (emptyCapture s).rd = 0 := rfl
@[simp] theorem emptyCapture_ovf : (emptyCapture s).ovf = false := rfl
@[simp] theorem emptyCapture_asm : (emptyCapture s).asm = s.asm := rfl
@[simp] theorem emptyCapture_cnt : (emptyCapture s).cnt = s.cnt := rfl
@[simp] theorem emptyCapture_expect : (emptyCapture s).expect = s.expect := rfl
@[simp] theorem emptyCapture_waitc : (emptyCapture s).waitc = s.waitc := rfl
@[simp] theorem emptyCapture_frameValid : (emptyCapture s).frameValid = s.frameValid := rfl
@[simp] theorem emptyCapture_lenOk : (emptyCapture s).lenOk = s.lenOk := rfl
@[simp] theorem emptyCapture_txbuf : (emptyCapture s).txbuf = s.txbuf := rfl
@[simp] theorem emptyCapture_txlen : (emptyCapture s).txlen = s.txlen := rfl
@[simp] theorem emptyCapture_txpos : (emptyCapture s).txpos = s.txpos := rfl
@[simp] theorem emptyCapture_ph : (emptyCapture s).ph = s.ph := rfl
@[simp] theorem emptyCapture_cur : (emptyCapture s).cur = s.cur := rfl
@[simp] theorem emptyCapture_rspOk : (emptyCapture s).rspOk = s.rspOk := rfl
@[simp] theorem emptyCapture_rspKind : (emptyCapture s).rspKind = s.rspKind := rfl
@[simp] theorem emptyCapture_rspValue : (emptyCapture s).rspValue = s.rspValue := rfl
@[simp] theorem emptyCapture_rspValid : (emptyCapture s).rspValid = s.rspValid := rfl
@[simp] theorem emptyCapture_txlog : (emptyCapture s).txlog = s.txlog := rfl
@[simp] theorem emptyCapture_rxin : (emptyCapture s).rxin = s.rxin := rfl
@[simp] theorem emptyCapture_cfg : (emptyCapture s).cfg = s.cfg := rfl
@[simp] theorem emptyCapture_inputs : (emptyCapture s).inputs = s.inputs := rfl
@[simp] theorem emptyCapture_pins : (emptyCapture s).pins = s.pins := rfl
@[simp] theorem emptyCapture_clock : (emptyCapture s).clock = s.clock := rfl

@[simp] theorem readerInit_dir (n : Nat) : (readerInit n s).dir = s.dir := rfl
@[simp] theorem readerInit_txEn (n : Nat) : (readerInit n s).txEn = s.txEn := rfl
@[simp] theorem readerInit_rxEn (n : Nat) : (readerInit n s).rxEn = s.rxEn := rfl
@[simp] theorem readerInit_auxSel (n : Nat) : (readerInit n s).auxSel = s.auxSel := rfl
@[simp] theorem readerInit_baud (n : Nat) : (readerInit n s).baud = s.baud := rfl
@[simp] theorem readerInit_lasterr (n : Nat) : (readerInit n s).lasterr = s.lasterr := rfl
@[simp] theorem readerInit_cap (n : Nat) : (readerInit n s).cap = s.cap := rfl
@[simp] theorem readerInit_wr (n : Nat) : (readerInit n s).wr = s.wr := rfl
@[simp] theorem readerInit_rd (n : Nat) : (readerInit n s).rd = s.rd := rfl
@[simp] theorem readerInit_ovf (n : Nat) : (readerInit n s).ovf = s.ovf := rfl
@[simp] theorem readerInit_asm (n : Nat) : (readerInit n s).asm = s.asm := rfl
@[simp] theorem readerInit_cnt (n : Nat) : (readerInit n s).cnt = 0 := rfl
@[simp] theorem readerInit_expect (n : Nat) : (readerInit n s).expect = n := rfl
@[simp] theorem readerInit_waitc (n : Nat) : (readerInit n s).waitc = 0 := rfl
@[simp] theorem readerInit_frameValid (n : Nat) : (readerInit n s).frameValid = false := rfl
@[simp] theorem readerInit_lenOk (n : Nat) : (readerInit n s).lenOk = false := rfl
@[simp] theorem readerInit_txbuf (n : Nat) : (readerInit n s).txbuf = s.txbuf := rfl
@[simp] theorem readerInit_txlen (n : Nat) : (readerInit n s).txlen = s.txlen := rfl
@[simp] theorem readerInit_txpos (n : Nat) : (readerInit n s).txpos = s.txpos := rfl
@[simp] theorem readerInit_ph (n : Nat) : (readerInit n s).ph = s.ph := rfl
@[simp] theorem readerInit_cur (n : Nat) : (readerInit n s).cur = s.cur := rfl
@[simp] theorem readerInit_rspOk (n : Nat) : (readerInit n s).rspOk = s.rspOk := rfl
@[simp] theorem readerInit_rspKind (n : Nat) : (readerInit n s).rspKind = s.rspKind := rfl
@[simp] theorem readerInit_rspValue (n : Nat) : (readerInit n s).rspValue = s.rspValue := rfl
@[simp] theorem readerInit_rspValid (n : Nat) : (readerInit n s).rspValid = s.rspValid := rfl
@[simp] theorem readerInit_txlog (n : Nat) : (readerInit n s).txlog = s.txlog := rfl
@[simp] theorem readerInit_rxin (n : Nat) : (readerInit n s).rxin = s.rxin := rfl
@[simp] theorem readerInit_cfg (n : Nat) : (readerInit n s).cfg = s.cfg := rfl
@[simp] theorem readerInit_inputs (n : Nat) : (readerInit n s).inputs = s.inputs := rfl
@[simp] theorem readerInit_pins (n : Nat) : (readerInit n s).pins = s.pins := rfl
@[simp] theorem readerInit_clock (n : Nat) : (readerInit n s).clock = s.clock := rfl

@[simp] theorem loadFrame_dir (l : List Byte) : (loadFrame l s).dir = s.dir := rfl
@[simp] theorem loadFrame_txEn (l : List Byte) : (loadFrame l s).txEn = s.txEn := rfl
@[simp] theorem loadFrame_rxEn (l : List Byte) : (loadFrame l s).rxEn = s.rxEn := rfl
@[simp] theorem loadFrame_auxSel (l : List Byte) : (loadFrame l s).auxSel = s.auxSel := rfl
@[simp] theorem loadFrame_baud (l : List Byte) : (loadFrame l s).baud = s.baud := rfl
@[simp] theorem loadFrame_lasterr (l : List Byte) : (loadFrame l s).lasterr = s.lasterr := rfl
@[simp] theorem loadFrame_cap (l : List Byte) : (loadFrame l s).cap = s.cap := rfl
@[simp] theorem loadFrame_wr (l : List Byte) : (loadFrame l s).wr = s.wr := rfl
@[simp] theorem loadFrame_rd (l : List Byte) : (loadFrame l s).rd = s.rd := rfl
@[simp] theorem loadFrame_ovf (l : List Byte) : (loadFrame l s).ovf = s.ovf := rfl
@[simp] theorem loadFrame_asm (l : List Byte) : (loadFrame l s).asm = s.asm := rfl
@[simp] theorem loadFrame_cnt (l : List Byte) : (loadFrame l s).cnt = s.cnt := rfl
@[simp] theorem loadFrame_expect (l : List Byte) : (loadFrame l s).expect = s.expect := rfl
@[simp] theorem loadFrame_waitc (l : List Byte) : (loadFrame l s).waitc = s.waitc := rfl
@[simp] theorem loadFrame_frameValid (l : List Byte) : (loadFrame l s).frameValid = s.frameValid := rfl
@[simp] theorem loadFrame_lenOk (l : List Byte) : (loadFrame l s).lenOk = s.lenOk := rfl
@[simp] theorem loadFrame_txbuf (l : List Byte) : (loadFrame l s).txbuf = Memory.writeList s.txbuf 0 l := rfl
@[simp] theorem loadFrame_txlen (l : List Byte) : (loadFrame l s).txlen = l.length := rfl
@[simp] theorem loadFrame_txpos (l : List Byte) : (loadFrame l s).txpos = 0 := rfl
@[simp] theorem loadFrame_ph (l : List Byte) : (loadFrame l s).ph = s.ph := rfl
@[simp] theorem loadFrame_cur (l : List Byte) : (loadFrame l s).cur = s.cur := rfl
@[simp] theorem loadFrame_rspOk (l : List Byte) : (loadFrame l s).rspOk = s.rspOk := rfl
@[simp] theorem loadFrame_rspKind (l : List Byte) : (loadFrame l s).rspKind = s.rspKind := rfl
@[simp] theorem loadFrame_rspValue (l : List Byte) : (loadFrame l s).rspValue = s.rspValue := rfl
@[simp] theorem loadFrame_rspValid (l : List Byte) : (loadFrame l s).rspValid = s.rspValid := rfl
@[simp] theorem loadFrame_txlog (l : List Byte) : (loadFrame l s).txlog = s.txlog := rfl
@[simp] theorem loadFrame_rxin (l : List Byte) : (loadFrame l s).rxin = s.rxin := rfl
@[simp] theorem loadFrame_cfg (l : List Byte) : (loadFrame l s).cfg = s.cfg := rfl
@[simp] theorem loadFrame_inputs (l : List Byte) : (loadFrame l s).inputs = s.inputs := rfl
@[simp] theorem loadFrame_pins (l : List Byte) : (loadFrame l s).pins = s.pins := rfl
@[simp] theorem loadFrame_clock (l : List Byte) : (loadFrame l s).clock = s.clock := rfl

@[simp] theorem emit_dir (b : Byte) : (emit b s).dir = s.dir := rfl
@[simp] theorem emit_txEn (b : Byte) : (emit b s).txEn = s.txEn := rfl
@[simp] theorem emit_rxEn (b : Byte) : (emit b s).rxEn = s.rxEn := rfl
@[simp] theorem emit_auxSel (b : Byte) : (emit b s).auxSel = s.auxSel := rfl
@[simp] theorem emit_baud (b : Byte) : (emit b s).baud = s.baud := rfl
@[simp] theorem emit_lasterr (b : Byte) : (emit b s).lasterr = s.lasterr := rfl
@[simp] theorem emit_cap (b : Byte) : (emit b s).cap = s.cap := rfl
@[simp] theorem emit_wr (b : Byte) : (emit b s).wr = s.wr := rfl
@[simp] theorem emit_rd (b : Byte) : (emit b s).rd = s.rd := rfl
@[simp] theorem emit_ovf (b : Byte) : (emit b s).ovf = s.ovf := rfl
@[simp] theorem emit_asm (b : Byte) : (emit b s).asm = s.asm := rfl
@[simp] theorem emit_cnt (b : Byte) : (emit b s).cnt = s.cnt := rfl
@[simp] theorem emit_expect (b : Byte) : (emit b s).expect = s.expect := rfl
@[simp] theorem emit_waitc (b : Byte) : (emit b s).waitc = s.waitc := rfl
@[simp] theorem emit_frameValid (b : Byte) : (emit b s).frameValid = s.frameValid := rfl
@[simp] theorem emit_lenOk (b : Byte) : (emit b s).lenOk = s.lenOk := rfl
@[simp] theorem emit_txbuf (b : Byte) : (emit b s).txbuf = s.txbuf := rfl
@[simp] theorem emit_txlen (b : Byte) : (emit b s).txlen = s.txlen := rfl
@[simp] theorem emit_txpos (b : Byte) : (emit b s).txpos = s.txpos := rfl
@[simp] theorem emit_ph (b : Byte) : (emit b s).ph = s.ph := rfl
@[simp] theorem emit_cur (b : Byte) : (emit b s).cur = s.cur := rfl
@[simp] theorem emit_rspOk (b : Byte) : (emit b s).rspOk = s.rspOk := rfl
@[simp] theorem emit_rspKind (b : Byte) : (emit b s).rspKind = s.rspKind := rfl
@[simp] theorem emit_rspValue (b : Byte) : (emit b s).rspValue = s.rspValue := rfl
@[simp] theorem emit_rspValid (b : Byte) : (emit b s).rspValid = s.rspValid := rfl
@[simp] theorem emit_txlog (b : Byte) : (emit b s).txlog = s.txlog ++ [b] := rfl
@[simp] theorem emit_rxin (b : Byte) : (emit b s).rxin = s.rxin := rfl
@[simp] theorem emit_cfg (b : Byte) : (emit b s).cfg = s.cfg := rfl
@[simp] theorem emit_inputs (b : Byte) : (emit b s).inputs = s.inputs := rfl
@[simp] theorem emit_pins (b : Byte) : (emit b s).pins = s.pins := rfl
@[simp] theorem emit_clock (b : Byte) : (emit b s).clock = s.clock := rfl

@[simp] theorem latch_dir (w : Word40) (first : Phase) : (latch w first s).dir = s.dir := rfl
@[simp] theorem latch_txEn (w : Word40) (first : Phase) : (latch w first s).txEn = s.txEn := rfl
@[simp] theorem latch_rxEn (w : Word40) (first : Phase) : (latch w first s).rxEn = s.rxEn := rfl
@[simp] theorem latch_auxSel (w : Word40) (first : Phase) : (latch w first s).auxSel = s.auxSel := rfl
@[simp] theorem latch_baud (w : Word40) (first : Phase) : (latch w first s).baud = s.baud := rfl
@[simp] theorem latch_lasterr (w : Word40) (first : Phase) : (latch w first s).lasterr = s.lasterr := rfl
@[simp] theorem latch_cap (w : Word40) (first : Phase) : (latch w first s).cap = s.cap := rfl
@[simp] theorem latch_wr (w : Word40) (first : Phase) : (latch w first s).wr = s.wr := rfl
@[simp] theorem latch_rd (w : Word40) (first : Phase) : (latch w first s).rd = s.rd := rfl
@[simp] theorem latch_ovf (w : Word40) (first : Phase) : (latch w first s).ovf = s.ovf := rfl
@[simp] theorem latch_asm (w : Word40) (first : Phase) : (latch w first s).asm = s.asm := rfl
@[simp] theorem latch_cnt (w : Word40) (first : Phase) : (latch w first s).cnt = s.cnt := rfl
@[simp] theorem latch_expect (w : Word40) (first : Phase) : (latch w first s).expect = s.expect := rfl
@[simp] theorem latch_waitc (w : Word40) (first : Phase) : (latch w first s).waitc = s.waitc := rfl
@[simp] theorem latch_frameValid (w : Word40) (first : Phase) : (latch w first s).frameValid = s.frameValid := rfl
@[simp] theorem latch_lenOk (w : Word40) (first : Phase) : (latch w first s).lenOk = s.lenOk := rfl
@[simp] theorem latch_txbuf (w : Word40) (first : Phase) : (latch w first s).txbuf = s.txbuf := rfl
@[simp] theorem latch_txlen (w : Word40) (first : Phase) : (latch w first s).txlen = s.txlen := rfl
@[simp] theorem latch_txpos (w : Word40) (first : Phase) : (latch w first s).txpos = s.txpos := rfl
@[simp] theorem latch_ph (w : Word40) (first : Phase) : (latch w first s).ph = first := rfl
@[simp] theorem latch_cur (w : Word40) (first : Phase) : (latch w first s).cur = w := rfl
@[simp] theorem latch_rspOk (w : Word40) (first : Phase) : (latch w first s).rspOk = s.rspOk := rfl
@[simp] theorem latch_rspKind (w : Word40) (first : Phase) : (latch w first s).rspKind = s.rspKind := rfl
@[simp] theorem latch_rspValue (w : Word40) (first : Phase) : (latch w first s).rspValue = s.rspValue := rfl
@[simp] theorem latch_rspValid (w : Word40) (first : Phase) : (latch w first s).rspValid = s.rspValid := rfl
@[simp] theorem latch_txlog (w : Word40) (first : Phase) : (latch w first s).txlog = s.txlog := rfl
@[simp] theorem latch_rxin (w : Word40) (first : Phase) : (latch w first s).rxin = s.rxin := rfl
@[simp] theorem latch_cfg (w : Word40) (first : Phase) : (latch w first s).cfg = s.cfg := rfl
@[simp] theorem latch_inputs (w : Word40) (first : Phase) : (latch w first s).inputs = s.inputs := rfl
@[simp] theorem latch_pins (w : Word40) (first : Phase) : (latch w first s).pins = s.pins := rfl
@[simp] theorem latch_clock (w : Word40) (first : Phase) : (latch w first s).clock = s.clock := rfl

@[simp] theorem hear_dir (b : Byte) : (hear b s).dir = s.dir := rfl
@[simp] theorem hear_txEn (b : Byte) : (hear b s).txEn = s.txEn := rfl
@[simp] theorem hear_rxEn (b : Byte) : (hear b s).rxEn = s.rxEn := rfl
@[simp] theorem hear_auxSel (b : Byte) : (hear b s).auxSel = s.auxSel := rfl
@[simp] theorem hear_baud (b : Byte) : (hear b s).baud = s.baud := rfl
@[simp] theorem hear_lasterr (b : Byte) : (hear b s).lasterr = s.lasterr := rfl
@[simp] theorem hear_cap (b : Byte) : (hear b s).cap = s.cap := rfl
@[simp] theorem hear_wr (b : Byte) : (hear b s).wr = s.wr := rfl
@[simp] theorem hear_rd (b : Byte) : (hear b s).rd = s.rd := rfl
@[simp] theorem hear_ovf (b : Byte) : (hear b s).ovf = s.ovf := rfl
@[simp] theorem hear_asm (b : Byte) : (hear b s).asm = s.asm := rfl
@[simp] theorem hear_cnt (b : Byte) : (hear b s).cnt = s.cnt := rfl
@[simp] theorem hear_expect (b : Byte) : (hear b s).expect = s.expect := rfl
@[simp] theorem hear_waitc (b : Byte) : (hear b s).waitc = s.waitc := rfl
@[simp] theorem hear_frameValid (b : Byte) : (hear b s).frameValid = s.frameValid := rfl
@[simp] theorem hear_lenOk (b : Byte) : (hear b s).lenOk = s.lenOk := rfl
@[simp] theorem hear_txbuf (b : Byte) : (hear b s).txbuf = s.txbuf := rfl
@[simp] theorem hear_txlen (b : Byte) : (hear b s).txlen = s.txlen := rfl
@[simp] theorem hear_txpos (b : Byte) : (hear b s).txpos = s.txpos := rfl
@[simp] theorem hear_ph (b : Byte) : (hear b s).ph = s.ph := rfl
@[simp] theorem hear_cur (b : Byte) : (hear b s).cur = s.cur := rfl
@[simp] theorem hear_rspOk (b : Byte) : (hear b s).rspOk = s.rspOk := rfl
@[simp] theorem hear_rspKind (b : Byte) : (hear b s).rspKind = s.rspKind := rfl
@[simp] theorem hear_rspValue (b : Byte) : (hear b s).rspValue = s.rspValue := rfl
@[simp] theorem hear_rspValid (b : Byte) : (hear b s).rspValid = s.rspValid := rfl
@[simp] theorem hear_txlog (b : Byte) : (hear b s).txlog = s.txlog := rfl
@[simp] theorem hear_rxin (b : Byte) : (hear b s).rxin = s.rxin ++ [b] := rfl
@[simp] theorem hear_cfg (b : Byte) : (hear b s).cfg = s.cfg := rfl
@[simp] theorem hear_inputs (b : Byte) : (hear b s).inputs = s.inputs := rfl
@[simp] theorem hear_pins (b : Byte) : (hear b s).pins = s.pins := rfl
@[simp] theorem hear_clock (b : Byte) : (hear b s).clock = s.clock := rfl

@[simp] theorem sample_dir (p : Pins) : (sample p s).dir = s.dir := rfl
@[simp] theorem sample_txEn (p : Pins) : (sample p s).txEn = s.txEn := rfl
@[simp] theorem sample_rxEn (p : Pins) : (sample p s).rxEn = s.rxEn := rfl
@[simp] theorem sample_auxSel (p : Pins) : (sample p s).auxSel = s.auxSel := rfl
@[simp] theorem sample_baud (p : Pins) : (sample p s).baud = s.baud := rfl
@[simp] theorem sample_lasterr (p : Pins) : (sample p s).lasterr = s.lasterr := rfl
@[simp] theorem sample_cap (p : Pins) : (sample p s).cap = s.cap := rfl
@[simp] theorem sample_wr (p : Pins) : (sample p s).wr = s.wr := rfl
@[simp] theorem sample_rd (p : Pins) : (sample p s).rd = s.rd := rfl
@[simp] theorem sample_ovf (p : Pins) : (sample p s).ovf = s.ovf := rfl
@[simp] theorem sample_asm (p : Pins) : (sample p s).asm = s.asm := rfl
@[simp] theorem sample_cnt (p : Pins) : (sample p s).cnt = s.cnt := rfl
@[simp] theorem sample_expect (p : Pins) : (sample p s).expect = s.expect := rfl
@[simp] theorem sample_waitc (p : Pins) : (sample p s).waitc = s.waitc := rfl
@[simp] theorem sample_frameValid (p : Pins) : (sample p s).frameValid = s.frameValid := rfl
@[simp] theorem sample_lenOk (p : Pins) : (sample p s).lenOk = s.lenOk := rfl
@[simp] theorem sample_txbuf (p : Pins) : (sample p s).txbuf = s.txbuf := rfl
@[simp] theorem sample_txlen (p : Pins) : (sample p s).txlen = s.txlen := rfl
@[simp] theorem sample_txpos (p : Pins) : (sample p s).txpos = s.txpos := rfl
@[simp] theorem sample_ph (p : Pins) : (sample p s).ph = s.ph := rfl
@[simp] theorem sample_cur (p : Pins) : (sample p s).cur = s.cur := rfl
@[simp] theorem sample_rspOk (p : Pins) : (sample p s).rspOk = s.rspOk := rfl
@[simp] theorem sample_rspKind (p : Pins) : (sample p s).rspKind = s.rspKind := rfl
@[simp] theorem sample_rspValue (p : Pins) : (sample p s).rspValue = s.rspValue := rfl
@[simp] theorem sample_rspValid (p : Pins) : (sample p s).rspValid = s.rspValid := rfl
@[simp] theorem sample_txlog (p : Pins) : (sample p s).txlog = s.txlog := rfl
@[simp] theorem sample_rxin (p : Pins) : (sample p s).rxin = s.rxin := rfl
@[simp] theorem sample_cfg (p : Pins) : (sample p s).cfg = s.cfg := rfl
@[simp] theorem sample_inputs (p : Pins) : (sample p s).inputs = s.inputs := rfl
@[simp] theorem sample_pins (p : Pins) : (sample p s).pins = p := rfl
@[simp] theorem sample_clock (p : Pins) : (sample p s).clock = s.clock := rfl

@[simp] theorem advance_dir : (advance s).dir = s.dir := rfl
@[simp] theorem advance_txEn : (advance s).txEn = s.txEn := rfl
@[simp] theorem advance_rxEn : (advance s).rxEn = s.rxEn := rfl
@[simp] theorem advance_auxSel : (advance s).auxSel = s.auxSel := rfl
@[simp] theorem advance_baud : (advance s).baud = s.baud := rfl
@[simp] theorem advance_lasterr : (advance s).lasterr = s.lasterr := rfl
@[simp] theorem advance_cap : (advance s).cap = s.cap := rfl
@[simp] theorem advance_wr : (advance s).wr = s.wr := rfl
@[simp] theorem advance_rd : (advance s).rd = s.rd := rfl
@[simp] theorem advance_ovf : (advance s).ovf = s.ovf := rfl
@[simp] theorem advance_asm : (advance s).asm = s.asm := rfl
@[simp] theorem advance_cnt : (advance s).cnt = s.cnt := rfl
@[simp] theorem advance_expect : (advance s).expect = s.expect := rfl
@[simp] theorem advance_waitc : (advance s).waitc = s.waitc := rfl
@[simp] theorem advance_frameValid : (advance s).frameValid = s.frameValid := rfl
@[simp] theorem advance_lenOk : (advance s).lenOk = s.lenOk := rfl
@[simp] theorem advance_txbuf : (advance s).txbuf = s.txbuf := rfl
@[simp] theorem advance_txlen : (advance s).txlen = s.txlen := rfl
@[simp] theorem advance_txpos : (advance s).txpos = s.txpos := rfl
@[simp] theorem advance_ph : (advance s).ph = s.ph := rfl
@[simp] theorem advance_cur : (advance s).cur = s.cur := rfl
@[simp] theorem advance_rspOk : (advance s).rspOk = s.rspOk := rfl
@[simp] theorem advance_rspKind : (advance s).rspKind = s.rspKind := rfl
@[simp] theorem advance_rspValue : (advance s).rspValue = s.rspValue := rfl
@[simp] theorem advance_rspValid : (advance s).rspValid = s.rspValid := rfl
@[simp] theorem advance_txlog : (advance s).txlog = s.txlog := rfl
@[simp] theorem advance_rxin : (advance s).rxin = s.rxin := rfl
@[simp] theorem advance_cfg : (advance s).cfg = s.cfg := rfl
@[simp] theorem advance_inputs : (advance s).inputs = s.inputs.tail := rfl
@[simp] theorem advance_pins : (advance s).pins = s.pins := rfl
@[simp] theorem advance_clock : (advance s).clock = s.clock + 1 := rfl

@[simp] theorem acceptSend_dir (w : Word40) (id inst : Byte) (ps : List Byte) : (acceptSend w id inst ps s).dir = s.dir := rfl
@[simp] theorem acceptSend_txEn (w : Word40) (id inst : Byte) (ps : List Byte) : (acceptSend w id inst ps s).txEn = s.txEn := rfl
@[simp] theorem acceptSend_rxEn (w : Word40) (id inst : Byte) (ps : List Byte) : (acceptSend w id inst ps s).rxEn = s.rxEn := rfl
@[simp] theorem acceptSend_auxSel (w : Word40) (id inst : Byte) (ps : List Byte) : (acceptSend w id inst ps s).auxSel = s.auxSel := rfl
@[simp] theorem acceptSend_baud (w : Word40) (id inst : Byte) (ps : List Byte) : (acceptSend w id inst ps s).baud = s.baud := rfl
@[simp] theorem acceptSend_lasterr (w : Word40) (id inst : Byte) (ps : List Byte) : (acceptSend w id inst ps s).lasterr = s.lasterr := rfl
@[simp] theorem acceptSend_cap (w : Word40) (id inst : Byte) (ps : List Byte) : (acceptSend w id inst ps s).cap = s.cap := rfl
@[simp] theorem acceptSend_wr (w : Word40) (id inst : Byte) (ps : List Byte) : (acceptSend w id inst ps s).wr = s.wr := rfl
@[simp] theorem acceptSend_rd (w : Word40) (id inst : Byte) (ps : List Byte) : (acceptSend w id inst ps s).rd = s.rd := rfl
@[simp] theorem acceptSend_ovf (w : Word40) (id inst : Byte) (ps : List Byte) : (acceptSend w id inst ps s).ovf = s.ovf := rfl
@[simp] theorem acceptSend_asm (w : Word40) (id inst : Byte) (ps : List Byte) : (acceptSend w id inst ps s).asm = s.asm := rfl
@[simp] theorem acceptSend_cnt (w : Word40) (id inst : Byte) (ps : List Byte) : (acceptSend w id inst ps s).cnt = s.cnt := rfl
@[simp] theorem acceptSend_expect (w : Word40) (id inst : Byte) (ps : List Byte) : (acceptSend w id inst ps s).expect = s.expect := rfl
@[simp] theorem acceptSend_waitc (w : Word40) (id inst : Byte) (ps : List Byte) : (acceptSend w id inst ps s).waitc = s.waitc := rfl
@[simp] theorem acceptSend_frameValid (w : Word40) (id inst : Byte) (ps : List Byte) : (acceptSend w id inst ps s).frameValid = s.frameValid := rfl
@[simp] theorem acceptSend_lenOk (w : Word40) (id inst : Byte) (ps : List Byte) : (acceptSend w id inst ps s).lenOk = s.lenOk := rfl
@[simp] theorem acceptSend_txbuf (w : Word40) (id inst : Byte) (ps : List Byte) : (acceptSend w id inst ps s).txbuf = Memory.writeList s.txbuf 0 (frameBytes id inst ps) := rfl
@[simp] theorem acceptSend_txlen (w : Word40) (id inst : Byte) (ps : List Byte) : (acceptSend w id inst ps s).txlen = (frameBytes id inst ps).length := rfl
@[simp] theorem acceptSend_txpos (w : Word40) (id inst : Byte) (ps : List Byte) : (acceptSend w id inst ps s).txpos = 0 := rfl
@[simp] theorem acceptSend_ph (w : Word40) (id inst : Byte) (ps : List Byte) : (acceptSend w id inst ps s).ph = .swtxA := rfl
@[simp] theorem acceptSend_cur (w : Word40) (id inst : Byte) (ps : List Byte) : (acceptSend w id inst ps s).cur = w := rfl
@[simp] theorem acceptSend_rspOk (w : Word40) (id inst : Byte) (ps : List Byte) : (acceptSend w id inst ps s).rspOk = s.rspOk := rfl
@[simp] theorem acceptSend_rspKind (w : Word40) (id inst : Byte) (ps : List Byte) : (acceptSend w id inst ps s).rspKind = s.rspKind := rfl
@[simp] theorem acceptSend_rspValue (w : Word40) (id inst : Byte) (ps : List Byte) : (acceptSend w id inst ps s).rspValue = s.rspValue := rfl
@[simp] theorem acceptSend_rspValid (w : Word40) (id inst : Byte) (ps : List Byte) : (acceptSend w id inst ps s).rspValid = s.rspValid := rfl
@[simp] theorem acceptSend_txlog (w : Word40) (id inst : Byte) (ps : List Byte) : (acceptSend w id inst ps s).txlog = s.txlog := rfl
@[simp] theorem acceptSend_rxin (w : Word40) (id inst : Byte) (ps : List Byte) : (acceptSend w id inst ps s).rxin = s.rxin := rfl
@[simp] theorem acceptSend_cfg (w : Word40) (id inst : Byte) (ps : List Byte) : (acceptSend w id inst ps s).cfg = s.cfg := rfl
@[simp] theorem acceptSend_inputs (w : Word40) (id inst : Byte) (ps : List Byte) : (acceptSend w id inst ps s).inputs = s.inputs := rfl
@[simp] theorem acceptSend_pins (w : Word40) (id inst : Byte) (ps : List Byte) : (acceptSend w id inst ps s).pins = s.pins := rfl
@[simp] theorem acceptSend_clock (w : Word40) (id inst : Byte) (ps : List Byte) : (acceptSend w id inst ps s).clock = s.clock := rfl

@[simp] theorem resetBlock_dir : (resetBlock s).dir = .receive := rfl
@[simp] theorem resetBlock_txEn : (resetBlock s).txEn = false := rfl
@[simp] theorem resetBlock_rxEn : (resetBlock s).rxEn = false := rfl
@[simp] theorem resetBlock_auxSel : (resetBlock s).auxSel = 0 := rfl
@[simp] theorem resetBlock_baud : (resetBlock s).baud = 0 := rfl
@[simp] theorem resetBlock_lasterr : (resetBlock s).lasterr = 0 := rfl
@[simp] theorem resetBlock_cap : (resetBlock s).cap = [] := rfl
@[simp] theorem resetBlock_wr : (resetBlock s).wr = 0 := rfl
@[simp] theorem resetBlock_rd : (resetBlock s).rd = 0 := rfl
@[simp] theorem resetBlock_ovf : (resetBlock s).ovf = false := rfl
@[simp] theorem resetBlock_asm : (resetBlock s).asm = [] := rfl
@[simp] theorem resetBlock_cnt : (resetBlock s).cnt = 0 := rfl
@[simp] theorem resetBlock_expect : (resetBlock s).expect = 0 := rfl
@[simp] theorem resetBlock_waitc : (resetBlock s).waitc = 0 := rfl
@[simp] theorem resetBlock_frameValid : (resetBlock s).frameValid = false := rfl
@[simp] theorem resetBlock_lenOk : (resetBlock s).lenOk = false := rfl
@[simp] theorem resetBlock_txbuf : (resetBlock s).txbuf = [] := rfl
@[simp] theorem resetBlock_txlen : (resetBlock s).txlen = 0 := rfl
@[simp] theorem resetBlock_txpos : (resetBlock s).txpos = 0 := rfl
@[simp] theorem resetBlock_ph : (resetBlock s).ph = .idle := rfl
@[simp] theorem resetBlock_cur : (resetBlock s).cur = 0 := rfl
@[simp] theorem resetBlock_rspOk : (resetBlock s).rspOk = false := rfl
@[simp] theorem resetBlock_rspKind : (resetBlock s).rspKind = .none := rfl
@[simp] theorem resetBlock_rspValue : (resetBlock s).rspValue = 0 := rfl
@[simp] theorem resetBlock_rspValid : (resetBlock s).rspValid = false := rfl
@[simp] theorem resetBlock_txlog : (resetBlock s).txlog = s.txlog := rfl
@[simp] theorem resetBlock_rxin : (resetBlock s).rxin = s.rxin := rfl
@[simp] theorem resetBlock_cfg : (resetBlock s).cfg = s.cfg := rfl
@[simp] theorem resetBlock_inputs : (resetBlock s).inputs = s.inputs := rfl
@[simp] theorem resetBlock_pins : (resetBlock s).pins = s.pins := rfl
@[simp] theorem resetBlock_clock : (resetBlock s).clock = s.clock := rfl

@[simp] theorem State.resetWith_dir (p : Params) (t : List Event) : (State.resetWith p t).dir = .receive := rfl
@[simp] theorem State.resetWith_txEn (p : Params) (t : List Event) : (State.resetWith p t).txEn = false := rfl
@[simp] theorem State.resetWith_rxEn (p : Params) (t : List Event) : (State.resetWith p t).rxEn = false := rfl
@[simp] theorem State.resetWith_auxSel (p : Params) (t : List Event) : (State.resetWith p t).auxSel = 0 := rfl
@[simp] theorem State.resetWith_baud (p : Params) (t : List Event) : (State.resetWith p t).baud = 0 := rfl
@[simp] theorem State.resetWith_lasterr (p : Params) (t : List Event) : (State.resetWith p t).lasterr = 0 := rfl
@[simp] theorem State.resetWith_cap (p : Params) (t : List Event) : (State.resetWith p t).cap = [] := rfl
@[simp] theorem State.resetWith_wr (p : Params) (t : List Event) : (State.resetWith p t).wr = 0 := rfl
@[simp] theorem State.resetWith_rd (p : Params) (t : List Event) : (State.resetWith p t).rd = 0 := rfl
@[simp] theorem State.resetWith_ovf (p : Params) (t : List Event) : (State.resetWith p t).ovf = false := rfl
@[simp] theorem State.resetWith_asm (p : Params) (t : List Event) : (State.resetWith p t).asm = [] := rfl
@[simp] theorem State.resetWith_cnt (p : Params) (t : List Event) : (State.resetWith p t).cnt = 0 := rfl
@[simp] theorem State.resetWith_expect (p : Params) (t : List Event) : (State.resetWith p t).expect = 0 := rfl
@[simp] theorem State.resetWith_waitc (p : Params) (t : List Event) : (State.resetWith p t).waitc = 0 := rfl
@[simp] theorem State.resetWith_frameValid (p : Params) (t : List Event) : (State.resetWith p t).frameValid = false := rfl
@[simp] theorem State.resetWith_lenOk (p : Params) (t : List Event) : (State.resetWith p t).lenOk = false := rfl
@[simp] theorem State.resetWith_txbuf (p : Params) (t : List Event) : (State.resetWith p t).txbuf = [] := rfl
@[simp] theorem State.resetWith_txlen (p : Params) (t : List Event) : (State.resetWith p t).txlen = 0 := rfl
@[simp] theorem State.resetWith_txpos (p : Params) (t : List Event) : (State.resetWith p t).txpos = 0 := rfl
@[simp] theorem State.resetWith_ph (p : Params) (t : List Event) : (State.resetWith p t).ph = .idle := rfl
@[simp] theorem State.resetWith_cur (p : Params) (t : List Event) : (State.resetWith p t).cur = 0 := rfl
@[simp] theorem State.resetWith_rspOk (p : Params) (t : List Event) : (State.resetWith p t).rspOk = false := rfl
@[simp] theorem State.resetWith_rspKind (p : Params) (t : List Event) : (State.resetWith p t).rspKind = .none := rfl
@[simp] theorem State.resetWith_rspValue (p : Params) (t : List Event) : (State.resetWith p t).rspValue = 0 := rfl
@[simp] theorem State.resetWith_rspValid (p : Params) (t : List Event) : (State.resetWith p t).rspValid = false := rfl
@[simp] theorem State.resetWith_txlog (p : Params) (t : List Event) : (State.resetWith p t).txlog = [] := rfl
@[simp] theorem State.resetWith_rxin (p : Params) (t : List Event) : (State.resetWith p t).rxin = [] := rfl
@[simp] theorem State.resetWith_cfg (p : Params) (t : List Event) : (State.resetWith p t).cfg = p := rfl
@[simp] theorem State.resetWith_inputs (p : Params) (t : List Event) : (State.resetWith p t).inputs = t := rfl
@[simp] theorem State.resetWith_pins (p : Params) (t : List Event) : (State.resetWith p t).pins = Pins.quiet := rfl
@[simp] theorem State.resetWith_clock (p : Params) (t : List Event) : (State.resetWith p t).clock = 0 := rfl

end Sys2Proof.Machine
end

