-- ==== Sys2Proof/Laws/Receive.lean ====
section
/-! SUPPORT. The receive step changes `CAP`, `WR`, `OVF` and `RXIN` only (spec/42_capture.md R105): one lemma per other field. -/

namespace Sys2Proof.Machine

variable (s : State)

@[simp] theorem capture_dir (b : Byte) : (capture b s).dir = s.dir := by unfold capture; split <;> (try split) <;> rfl
@[simp] theorem capture_txEn (b : Byte) : (capture b s).txEn = s.txEn := by unfold capture; split <;> (try split) <;> rfl
@[simp] theorem capture_rxEn (b : Byte) : (capture b s).rxEn = s.rxEn := by unfold capture; split <;> (try split) <;> rfl
@[simp] theorem capture_auxSel (b : Byte) : (capture b s).auxSel = s.auxSel := by unfold capture; split <;> (try split) <;> rfl
@[simp] theorem capture_baud (b : Byte) : (capture b s).baud = s.baud := by unfold capture; split <;> (try split) <;> rfl
@[simp] theorem capture_lasterr (b : Byte) : (capture b s).lasterr = s.lasterr := by unfold capture; split <;> (try split) <;> rfl
@[simp] theorem capture_rd (b : Byte) : (capture b s).rd = s.rd := by unfold capture; split <;> (try split) <;> rfl
@[simp] theorem capture_asm (b : Byte) : (capture b s).asm = s.asm := by unfold capture; split <;> (try split) <;> rfl
@[simp] theorem capture_cnt (b : Byte) : (capture b s).cnt = s.cnt := by unfold capture; split <;> (try split) <;> rfl
@[simp] theorem capture_expect (b : Byte) : (capture b s).expect = s.expect := by unfold capture; split <;> (try split) <;> rfl
@[simp] theorem capture_waitc (b : Byte) : (capture b s).waitc = s.waitc := by unfold capture; split <;> (try split) <;> rfl
@[simp] theorem capture_frameValid (b : Byte) : (capture b s).frameValid = s.frameValid := by unfold capture; split <;> (try split) <;> rfl
@[simp] theorem capture_lenOk (b : Byte) : (capture b s).lenOk = s.lenOk := by unfold capture; split <;> (try split) <;> rfl
@[simp] theorem capture_txbuf (b : Byte) : (capture b s).txbuf = s.txbuf := by unfold capture; split <;> (try split) <;> rfl
@[simp] theorem capture_txlen (b : Byte) : (capture b s).txlen = s.txlen := by unfold capture; split <;> (try split) <;> rfl
@[simp] theorem capture_txpos (b : Byte) : (capture b s).txpos = s.txpos := by unfold capture; split <;> (try split) <;> rfl
@[simp] theorem capture_ph (b : Byte) : (capture b s).ph = s.ph := by unfold capture; split <;> (try split) <;> rfl
@[simp] theorem capture_cur (b : Byte) : (capture b s).cur = s.cur := by unfold capture; split <;> (try split) <;> rfl
@[simp] theorem capture_rspOk (b : Byte) : (capture b s).rspOk = s.rspOk := by unfold capture; split <;> (try split) <;> rfl
@[simp] theorem capture_rspKind (b : Byte) : (capture b s).rspKind = s.rspKind := by unfold capture; split <;> (try split) <;> rfl
@[simp] theorem capture_rspValue (b : Byte) : (capture b s).rspValue = s.rspValue := by unfold capture; split <;> (try split) <;> rfl
@[simp] theorem capture_rspValid (b : Byte) : (capture b s).rspValid = s.rspValid := by unfold capture; split <;> (try split) <;> rfl
@[simp] theorem capture_txlog (b : Byte) : (capture b s).txlog = s.txlog := by unfold capture; split <;> (try split) <;> rfl
@[simp] theorem capture_rxin (b : Byte) : (capture b s).rxin = s.rxin := by unfold capture; split <;> (try split) <;> rfl
@[simp] theorem capture_cfg (b : Byte) : (capture b s).cfg = s.cfg := by unfold capture; split <;> (try split) <;> rfl
@[simp] theorem capture_inputs (b : Byte) : (capture b s).inputs = s.inputs := by unfold capture; split <;> (try split) <;> rfl
@[simp] theorem capture_pins (b : Byte) : (capture b s).pins = s.pins := by unfold capture; split <;> (try split) <;> rfl
@[simp] theorem capture_clock (b : Byte) : (capture b s).clock = s.clock := by unfold capture; split <;> (try split) <;> rfl

@[simp] theorem rxStep_dir (v : Bool) (b : Byte) : (rxStep v b s).dir = s.dir := by unfold rxStep; split <;> simp
@[simp] theorem rxStep_txEn (v : Bool) (b : Byte) : (rxStep v b s).txEn = s.txEn := by unfold rxStep; split <;> simp
@[simp] theorem rxStep_rxEn (v : Bool) (b : Byte) : (rxStep v b s).rxEn = s.rxEn := by unfold rxStep; split <;> simp
@[simp] theorem rxStep_auxSel (v : Bool) (b : Byte) : (rxStep v b s).auxSel = s.auxSel := by unfold rxStep; split <;> simp
@[simp] theorem rxStep_baud (v : Bool) (b : Byte) : (rxStep v b s).baud = s.baud := by unfold rxStep; split <;> simp
@[simp] theorem rxStep_lasterr (v : Bool) (b : Byte) : (rxStep v b s).lasterr = s.lasterr := by unfold rxStep; split <;> simp
@[simp] theorem rxStep_rd (v : Bool) (b : Byte) : (rxStep v b s).rd = s.rd := by unfold rxStep; split <;> simp
@[simp] theorem rxStep_asm (v : Bool) (b : Byte) : (rxStep v b s).asm = s.asm := by unfold rxStep; split <;> simp
@[simp] theorem rxStep_cnt (v : Bool) (b : Byte) : (rxStep v b s).cnt = s.cnt := by unfold rxStep; split <;> simp
@[simp] theorem rxStep_expect (v : Bool) (b : Byte) : (rxStep v b s).expect = s.expect := by unfold rxStep; split <;> simp
@[simp] theorem rxStep_waitc (v : Bool) (b : Byte) : (rxStep v b s).waitc = s.waitc := by unfold rxStep; split <;> simp
@[simp] theorem rxStep_frameValid (v : Bool) (b : Byte) : (rxStep v b s).frameValid = s.frameValid := by unfold rxStep; split <;> simp
@[simp] theorem rxStep_lenOk (v : Bool) (b : Byte) : (rxStep v b s).lenOk = s.lenOk := by unfold rxStep; split <;> simp
@[simp] theorem rxStep_txbuf (v : Bool) (b : Byte) : (rxStep v b s).txbuf = s.txbuf := by unfold rxStep; split <;> simp
@[simp] theorem rxStep_txlen (v : Bool) (b : Byte) : (rxStep v b s).txlen = s.txlen := by unfold rxStep; split <;> simp
@[simp] theorem rxStep_txpos (v : Bool) (b : Byte) : (rxStep v b s).txpos = s.txpos := by unfold rxStep; split <;> simp
@[simp] theorem rxStep_ph (v : Bool) (b : Byte) : (rxStep v b s).ph = s.ph := by unfold rxStep; split <;> simp
@[simp] theorem rxStep_cur (v : Bool) (b : Byte) : (rxStep v b s).cur = s.cur := by unfold rxStep; split <;> simp
@[simp] theorem rxStep_rspOk (v : Bool) (b : Byte) : (rxStep v b s).rspOk = s.rspOk := by unfold rxStep; split <;> simp
@[simp] theorem rxStep_rspKind (v : Bool) (b : Byte) : (rxStep v b s).rspKind = s.rspKind := by unfold rxStep; split <;> simp
@[simp] theorem rxStep_rspValue (v : Bool) (b : Byte) : (rxStep v b s).rspValue = s.rspValue := by unfold rxStep; split <;> simp
@[simp] theorem rxStep_rspValid (v : Bool) (b : Byte) : (rxStep v b s).rspValid = s.rspValid := by unfold rxStep; split <;> simp
@[simp] theorem rxStep_txlog (v : Bool) (b : Byte) : (rxStep v b s).txlog = s.txlog := by unfold rxStep; split <;> simp
@[simp] theorem rxStep_cfg (v : Bool) (b : Byte) : (rxStep v b s).cfg = s.cfg := by unfold rxStep; split <;> simp
@[simp] theorem rxStep_inputs (v : Bool) (b : Byte) : (rxStep v b s).inputs = s.inputs := by unfold rxStep; split <;> simp
@[simp] theorem rxStep_pins (v : Bool) (b : Byte) : (rxStep v b s).pins = s.pins := by unfold rxStep; split <;> simp
@[simp] theorem rxStep_clock (v : Bool) (b : Byte) : (rxStep v b s).clock = s.clock := by unfold rxStep; split <;> simp
@[simp] theorem receiveBytes_dir (l : List Byte) : (receiveBytes l s).dir = s.dir := by
  induction l generalizing s with
  | nil => rfl
  | cons b rest ih => exact (ih _).trans (rxStep_dir s true b)
@[simp] theorem receiveBytes_txEn (l : List Byte) : (receiveBytes l s).txEn = s.txEn := by
  induction l generalizing s with
  | nil => rfl
  | cons b rest ih => exact (ih _).trans (rxStep_txEn s true b)
@[simp] theorem receiveBytes_rxEn (l : List Byte) : (receiveBytes l s).rxEn = s.rxEn := by
  induction l generalizing s with
  | nil => rfl
  | cons b rest ih => exact (ih _).trans (rxStep_rxEn s true b)
@[simp] theorem receiveBytes_auxSel (l : List Byte) : (receiveBytes l s).auxSel = s.auxSel := by
  induction l generalizing s with
  | nil => rfl
  | cons b rest ih => exact (ih _).trans (rxStep_auxSel s true b)
@[simp] theorem receiveBytes_baud (l : List Byte) : (receiveBytes l s).baud = s.baud := by
  induction l generalizing s with
  | nil => rfl
  | cons b rest ih => exact (ih _).trans (rxStep_baud s true b)
@[simp] theorem receiveBytes_lasterr (l : List Byte) : (receiveBytes l s).lasterr = s.lasterr := by
  induction l generalizing s with
  | nil => rfl
  | cons b rest ih => exact (ih _).trans (rxStep_lasterr s true b)
@[simp] theorem receiveBytes_asm (l : List Byte) : (receiveBytes l s).asm = s.asm := by
  induction l generalizing s with
  | nil => rfl
  | cons b rest ih => exact (ih _).trans (rxStep_asm s true b)
@[simp] theorem receiveBytes_cnt (l : List Byte) : (receiveBytes l s).cnt = s.cnt := by
  induction l generalizing s with
  | nil => rfl
  | cons b rest ih => exact (ih _).trans (rxStep_cnt s true b)
@[simp] theorem receiveBytes_expect (l : List Byte) : (receiveBytes l s).expect = s.expect := by
  induction l generalizing s with
  | nil => rfl
  | cons b rest ih => exact (ih _).trans (rxStep_expect s true b)
@[simp] theorem receiveBytes_waitc (l : List Byte) : (receiveBytes l s).waitc = s.waitc := by
  induction l generalizing s with
  | nil => rfl
  | cons b rest ih => exact (ih _).trans (rxStep_waitc s true b)
@[simp] theorem receiveBytes_frameValid (l : List Byte) : (receiveBytes l s).frameValid = s.frameValid := by
  induction l generalizing s with
  | nil => rfl
  | cons b rest ih => exact (ih _).trans (rxStep_frameValid s true b)
@[simp] theorem receiveBytes_lenOk (l : List Byte) : (receiveBytes l s).lenOk = s.lenOk := by
  induction l generalizing s with
  | nil => rfl
  | cons b rest ih => exact (ih _).trans (rxStep_lenOk s true b)
@[simp] theorem receiveBytes_txbuf (l : List Byte) : (receiveBytes l s).txbuf = s.txbuf := by
  induction l generalizing s with
  | nil => rfl
  | cons b rest ih => exact (ih _).trans (rxStep_txbuf s true b)
@[simp] theorem receiveBytes_txlen (l : List Byte) : (receiveBytes l s).txlen = s.txlen := by
  induction l generalizing s with
  | nil => rfl
  | cons b rest ih => exact (ih _).trans (rxStep_txlen s true b)
@[simp] theorem receiveBytes_txpos (l : List Byte) : (receiveBytes l s).txpos = s.txpos := by
  induction l generalizing s with
  | nil => rfl
  | cons b rest ih => exact (ih _).trans (rxStep_txpos s true b)
@[simp] theorem receiveBytes_ph (l : List Byte) : (receiveBytes l s).ph = s.ph := by
  induction l generalizing s with
  | nil => rfl
  | cons b rest ih => exact (ih _).trans (rxStep_ph s true b)
@[simp] theorem receiveBytes_cur (l : List Byte) : (receiveBytes l s).cur = s.cur := by
  induction l generalizing s with
  | nil => rfl
  | cons b rest ih => exact (ih _).trans (rxStep_cur s true b)
@[simp] theorem receiveBytes_rspOk (l : List Byte) : (receiveBytes l s).rspOk = s.rspOk := by
  induction l generalizing s with
  | nil => rfl
  | cons b rest ih => exact (ih _).trans (rxStep_rspOk s true b)
@[simp] theorem receiveBytes_rspKind (l : List Byte) : (receiveBytes l s).rspKind = s.rspKind := by
  induction l generalizing s with
  | nil => rfl
  | cons b rest ih => exact (ih _).trans (rxStep_rspKind s true b)
@[simp] theorem receiveBytes_rspValue (l : List Byte) : (receiveBytes l s).rspValue = s.rspValue := by
  induction l generalizing s with
  | nil => rfl
  | cons b rest ih => exact (ih _).trans (rxStep_rspValue s true b)
@[simp] theorem receiveBytes_rspValid (l : List Byte) : (receiveBytes l s).rspValid = s.rspValid := by
  induction l generalizing s with
  | nil => rfl
  | cons b rest ih => exact (ih _).trans (rxStep_rspValid s true b)
@[simp] theorem receiveBytes_txlog (l : List Byte) : (receiveBytes l s).txlog = s.txlog := by
  induction l generalizing s with
  | nil => rfl
  | cons b rest ih => exact (ih _).trans (rxStep_txlog s true b)
@[simp] theorem receiveBytes_cfg (l : List Byte) : (receiveBytes l s).cfg = s.cfg := by
  induction l generalizing s with
  | nil => rfl
  | cons b rest ih => exact (ih _).trans (rxStep_cfg s true b)
@[simp] theorem receiveBytes_inputs (l : List Byte) : (receiveBytes l s).inputs = s.inputs := by
  induction l generalizing s with
  | nil => rfl
  | cons b rest ih => exact (ih _).trans (rxStep_inputs s true b)
@[simp] theorem receiveBytes_pins (l : List Byte) : (receiveBytes l s).pins = s.pins := by
  induction l generalizing s with
  | nil => rfl
  | cons b rest ih => exact (ih _).trans (rxStep_pins s true b)
@[simp] theorem receiveBytes_clock (l : List Byte) : (receiveBytes l s).clock = s.clock := by
  induction l generalizing s with
  | nil => rfl
  | cons b rest ih => exact (ih _).trans (rxStep_clock s true b)

end Sys2Proof.Machine
end

