-- ==== Sys2Proof/Laws/Ops.lean ====
section
/-! SUPPORT. What each shared operation can do, said once: reading and writing an array, going on or stopping, the receive step, the
arrival of many bytes. -/

namespace Sys2Proof.Machine

open Safety

@[simp] theorem orFault_ok {α : Type} (a : α) (f : α → Result) : orFault (.ok a) f = f a := rfl
@[simp] theorem orFault_error {α : Type} (e : Fault) (f : α → Result) : orFault (.error e) f = .fault e := rfl
@[simp] theorem andThen_next (s : State) (f : State → State) : andThen (.next s) f = .next (f s) := rfl
@[simp] theorem andThen_fault (e : Fault) (f : State → State) : andThen (.fault e) f = .fault e := rfl
@[simp] theorem andThen_refused (e : Refusal) (f : State → State) : andThen (.refused e) f = .refused e := rfl

@[simp] theorem frameBytes_length (id inst : Byte) (params : List Byte) :
    (frameBytes id inst params).length = params.length + 6 := by simp [frameBytes]

theorem sum8_toNat (l : List Byte) : (sum8 l).toNat = (l.map BitVec.toNat).sum % 256 := by simp [sum8]

/-- The bytes of a list and their checksum pass the acceptance test (spec/40_checksum.md R89). -/
theorem frameSumOk_append_csum (l : List Byte) : frameSumOk (l ++ [csum l]) = true := by
  simp only [frameSumOk, beq_iff_eq, ← BitVec.toNat_inj, sum8_toNat, csum, List.map_append, List.sum_append, List.map_cons,
    List.map_nil, List.sum_cons, List.sum_nil, BitVec.toNat_not]
  simp; omega

/-- A frame that is built passes the acceptance test from its id on (spec/44_serializer.md R133). -/
theorem frameSumOk_frameBytes (id inst : Byte) (params : List Byte) : frameSumOk ((frameBytes id inst params).drop 2) = true :=
  frameSumOk_append_csum _

theorem orFault_eq_next {α : Type} {x : Except Fault α} {f : α → Result} {t : State} :
    orFault x f = .next t ↔ ∃ a, x = .ok a ∧ f a = .next t := by
  cases x <;> simp

theorem andThen_eq_next {r : Result} {f : State → State} {t : State} :
    andThen r f = .next t ↔ ∃ u, r = .next u ∧ f u = t := by
  cases r <;> simp

theorem readByte_eq_ok {buf : Buffer} {s : State} {i : Nat} {b : Byte} :
    readByte buf s i = .ok b ↔ i < bufferSize buf s ∧ Memory.read (bufferOf buf s) i = some b := by
  unfold readByte
  split <;> [cases h : Memory.read (bufferOf buf s) i <;> simp_all; simp_all]

/-- A byte that was written at an index of the array is read. -/
theorem readByte_of_written {buf : Buffer} {s : State} {i : Nat} {b : Byte} (hi : i < bufferSize buf s)
    (hb : Memory.read (bufferOf buf s) i = some b) : readByte buf s i = .ok b := readByte_eq_ok.2 ⟨hi, hb⟩

theorem readBytes_eq_ok {buf : Buffer} {s : State} {n : Nat} : ∀ {i : Nat} {l : List Byte},
    readBytes buf s i n = .ok l ↔ l.length = n ∧ ∀ k (h : k < l.length), readByte buf s (i + k) = .ok l[k] := by
  induction n with
  | zero =>
    intro i l
    cases l <;> simp [readBytes]
  | succ n ih =>
    intro i l
    cases l with
    | nil => simp only [readBytes]; split <;> [simp; (split <;> simp)]
    | cons b rest =>
      simp only [readBytes, List.length_cons, Nat.add_right_cancel_iff]
      constructor
      · intro h
        split at h
        · simp at h
        · rename_i b' hb
          split at h
          · simp at h
          · rename_i l' hl
            simp only [Except.ok.injEq, List.cons.injEq] at h
            obtain ⟨rfl, rfl⟩ := h
            obtain ⟨h1, h2⟩ := ih.1 hl
            refine ⟨h1, fun k hk => ?_⟩
            cases k with
            | zero => simpa using hb
            | succ k => simpa [Nat.add_assoc, Nat.add_comm 1 k] using h2 k (by simpa using hk)
      · rintro ⟨h1, h2⟩
        have h3 := h2 0 (by simp)
        have h4 : readBytes buf s (i + 1) n = .ok rest :=
          ih.2 ⟨h1, fun k hk => by
            have := h2 (k + 1) (by simpa using hk)
            rw [List.getElem_cons_succ] at this
            rwa [Nat.add_assoc, Nat.add_comm 1 k]⟩
        simp only [Nat.add_zero, List.getElem_cons_zero] at h3
        simp [h3, h4]

/-- Where every byte of a stretch was written and the stretch is inside the array, it is read. -/
theorem readBytes_of_written {buf : Buffer} {s : State} {m : Nat} (hm : m ≤ bufferSize buf s)
    (hw : WrittenBelow (bufferOf buf s) m) {i n : Nat} (hn : i + n ≤ m) : ∃ l, readBytes buf s i n = .ok l := by
  induction n generalizing i with
  | zero => exact ⟨[], rfl⟩
  | succ n ih =>
    obtain ⟨b, hb⟩ := Option.isSome_iff_exists.1 (hw i (by omega))
    obtain ⟨l, hl⟩ := ih (i := i + 1) (by omega)
    exact ⟨b :: l, by simp [readBytes, readByte_of_written (by omega) hb, hl]⟩

theorem writeAsm_eq_ok {s t : State} {i : Nat} {b : Byte} :
    writeAsm s i b = .ok t ↔ i < s.cfg.capDepth ∧ t = { s with asm := Memory.write s.asm i b } := by
  unfold writeAsm
  split <;> rename_i h <;> simp [bufferSize] at h ⊢ <;> simp [h, eq_comm]

/-- What one arriving byte does (spec/42_capture.md R105). -/
theorem capture_cases (b : Byte) (s : State) :
    (s.rxEn = true ∧ s.wr < s.cfg.capDepth ∧ capture b s = { s with cap := Memory.write s.cap s.wr b, wr := s.wr + 1 }) ∨
    (s.rxEn = true ∧ ¬ s.wr < s.cfg.capDepth ∧ capture b s = { s with ovf := true }) ∨
    (s.rxEn = false ∧ capture b s = s) := by
  unfold capture captureRoom
  cases s.rxEn <;> by_cases h : s.wr < s.cfg.capDepth <;> simp [h]

@[simp] theorem rxStep_false (b : Byte) (s : State) : rxStep false b s = s := rfl

theorem rxStep_true (b : Byte) (s : State) : rxStep true b s = capture b (hear b s) := rfl

@[simp] theorem receiveBytes_nil (s : State) : receiveBytes [] s = s := rfl
@[simp] theorem receiveBytes_cons (b : Byte) (l : List Byte) (s : State) :
    receiveBytes (b :: l) s = receiveBytes l (rxStep true b s) := rfl

/-- With the receiver disabled bytes are lost; only `RXIN` shows them (R106). -/
theorem receiveBytes_disabled (l : List Byte) (s : State) (h : s.rxEn = false) :
    receiveBytes l s = { s with rxin := s.rxin ++ l } := by
  induction l generalizing s with
  | nil => simp
  | cons b rest ih =>
    have hb : rxStep true b s = hear b s := by simp [rxStep_true, capture, h]
    rw [receiveBytes_cons, hb, ih (hear b s) h]
    simp [hear]

end Sys2Proof.Machine
end

