-- ==== Sys2Proof/Laws/PerInstr.lean ====
section
/-! SUPPORT. A law of every instruction, said once per constructor: the word of a command selects its own row of the mask table
(spec/30_encoding.md R62), whatever its operands, and the bytes of a frame begin with the sync marker and are at least six (R71, R72). -/

namespace Sys2Proof.Laws.OwnRow

open Machine

/-- The law. -/
def Statement (i : Instr) : Prop :=
  ∀ p : Params,
    match encode p i with
    | .command w => isCommand i = true ∧ ∃ r ∈ commandRows, r.mnemonic = mnemonicOf i ∧ r.selects w = true
    | .line l => isCommand i = false ∧ l.take 2 = [Config.sync, Config.sync] ∧ 6 ≤ l.length

/-- The six fields of a word side by side. -/
theorem laid_and (o o' : BitVec 4) (a a' : BitVec 1) (r r' : BitVec 3) (i i' d d' : Byte) (v v' : Word16) :
    (o ++ a ++ r ++ i ++ d ++ v : Word40) &&& (o' ++ a' ++ r' ++ i' ++ d' ++ v' : Word40) =
      (o &&& o') ++ (a &&& a') ++ (r &&& r') ++ (i &&& i') ++ (d &&& d') ++ (v &&& v') := by
  simp only [BitVec.and_append]

/-- A word laid out from its fields selects a row exactly as its fields do. -/
theorem selects_commandWord {row : CommandRow} (mop : BitVec 4) (mall : BitVec 1) (mid maddr : Byte) (mdata : Word16)
    (hm : row.mask = mop ++ mall ++ 7#3 ++ mid ++ maddr ++ mdata) (op : BitVec 4) (all : Bool) (id addr : Byte) (data : Word16)
    (hp : row.pattern = (op &&& mop) ++ (BitVec.ofBool all &&& mall) ++ (0#3 &&& 7#3) ++ (id &&& mid) ++ (addr &&& maddr) ++
      (data &&& mdata)) : row.selects (commandWord op all id addr data) = true := by
  rw [CommandRow.selects, hm, hp, commandWord, laid_and]
  simp

theorem zext16_and_high (v : Byte) : zext16 v &&& 0xFF00#16 = 0#16 := by
  apply BitVec.eq_of_getLsbD_eq
  intro i hi
  simp only [zext16, BitVec.getLsbD_and, BitVec.getLsbD_setWidth, hi, decide_true, Bool.true_and]
  interval_cases i <;> simp

theorem init (baud : Word32) : Statement (.init baud) := by
  refine fun p => ⟨rfl, ⟨"INIT", 0x1000000000, 0xFF00000000⟩, by decide, rfl, ?_⟩
  have h : initWord baud &&& (0xF#4 ++ 0xF#4 ++ 0#32 : Word40) = (0x1#4 ++ 0#4 ++ 0#32 : Word40) := by
    rw [initWord, BitVec.and_append, BitVec.and_zero]
    rfl
  simp only [CommandRow.selects, beq_iff_eq]
  exact h

theorem swTx (id : Byte) : Statement (.swTx id) := fun _ =>
  ⟨rfl, ⟨"SW_TX", 0x2000000000, 0xFF00FFFFFF⟩, by decide, rfl,
    selects_commandWord 0xF 1 0 0xFF 0xFFFF (by decide) _ _ _ _ _ (by simp [opSwTx])⟩

theorem swRx (id : Byte) : Statement (.swRx id) := fun _ =>
  ⟨rfl, ⟨"SW_RX", 0x3000000000, 0xFF00FFFFFF⟩, by decide, rfl,
    selects_commandWord 0xF 1 0 0xFF 0xFFFF (by decide) _ _ _ _ _ (by simp [opSwRx])⟩

theorem swAllTx : Statement .swAllTx := fun _ =>
  ⟨rfl, ⟨"SW_ALL_TX", 0x4000000000, 0xFFFFFFFFFF⟩, by decide, rfl, by decide⟩

theorem buildRead (id addr len : Byte) : Statement (.buildRead id addr len) := fun _ =>
  ⟨rfl, ⟨"BUILD_READ", 0x5000000000, 0xFF0000FF00⟩, by decide, rfl,
    selects_commandWord 0xF 1 0 0 0xFF00 (by decide) _ _ _ _ _ (by simp [opBuildRead, zext16_and_high])⟩

theorem buildWrite (all : Bool) (id addr val : Byte) : Statement (.buildWrite all id addr val) := fun _ =>
  ⟨rfl, ⟨"BUILD_WRITE", 0x6000000000, 0xF70000FF00⟩, by decide, rfl,
    selects_commandWord 0xF 0 0 0 0xFF00 (by decide) _ _ _ _ _ (by simp [opBuildWrite, zext16_and_high])⟩

theorem buildWrite2 (all : Bool) (id addr : Byte) (val : Word16) : Statement (.buildWrite2 all id addr val) := fun _ =>
  ⟨rfl, ⟨"BUILD_WRITE2", 0x7000000000, 0xF700000000⟩, by decide, rfl,
    selects_commandWord 0xF 0 0 0 0 (by decide) _ _ _ _ _ (by simp [opBuildWrite2])⟩

theorem readPacket (n : Byte) : Statement (.readPacket n) := fun _ =>
  ⟨rfl, ⟨"READ_PACKET", 0x8000000000, 0xFFFFFFFF00⟩, by decide, rfl,
    selects_commandWord 0xF 1 0xFF 0xFF 0xFF00 (by decide) _ _ _ _ _ (by simp [opReadPacket, zext16_and_high])⟩

theorem getReg (id addr width : Byte) : Statement (.getReg id addr width) := fun _ =>
  ⟨rfl, ⟨"GET_REG", 0x9000000000, 0xFF0000FF00⟩, by decide, rfl,
    selects_commandWord 0xF 1 0 0 0xFF00 (by decide) _ _ _ _ _ (by simp [opGetReg, zext16_and_high])⟩

theorem setReg (id addr val : Byte) : Statement (.setReg id addr val) := fun _ =>
  ⟨rfl, ⟨"SET_REG", 0xA000000000, 0xFF0000FF00⟩, by decide, rfl,
    selects_commandWord 0xF 1 0 0 0xFF00 (by decide) _ _ _ _ _ (by simp [opSetReg, zext16_and_high])⟩

theorem setReg2 (id addr : Byte) (val : Word16) : Statement (.setReg2 id addr val) := fun _ =>
  ⟨rfl, ⟨"SET_REG2", 0xB000000000, 0xFF00000000⟩, by decide, rfl,
    selects_commandWord 0xF 1 0 0 0 (by decide) _ _ _ _ _ (by simp [opSetReg2])⟩

theorem getLastError : Statement .getLastError := fun _ =>
  ⟨rfl, ⟨"GET_LAST_ERROR", 0xC000000000, 0xFFFFFFFFFF⟩, by decide, rfl, by decide⟩

theorem frameReadReq (id addr len chk : Byte) : Statement (.frameReadReq id addr len chk) := fun _ =>
  ⟨rfl, rfl, by simp [readReqBytes]⟩

theorem frameWrite1Req (id addr val chk : Byte) : Statement (.frameWrite1Req id addr val chk) := fun _ =>
  ⟨rfl, rfl, by simp [write1ReqBytes]⟩

theorem frameWrite2Req (id addr : Byte) (val : Word16) (chk : Byte) : Statement (.frameWrite2Req id addr val chk) := fun _ =>
  ⟨rfl, rfl, by simp [write2ReqBytes]⟩

theorem frameResponse (id length status : Byte) (data : List Byte) (chk : Byte) :
    Statement (.frameResponse id length status data chk) := fun _ =>
  ⟨rfl, rfl, by simp [responseBytes]⟩

end Sys2Proof.Laws.OwnRow
end

