-- ==== Sys2Proof/Laws/Phases.lean ====
section
/-! SUPPORT. What each phase step can do, said once: if it answers a next state, then one of these cases holds. -/

namespace Sys2Proof.Machine

theorem selFor_shared {s : State} {d : Direction} (h : s.cfg.dirMode = .shared) : selFor d s = .ok s.auxSel := by
  simp [selFor, h]

/-- The selector of a switch: unchanged in `SHARED` mode; else 0 for `INIT`, `SEL_ALL` for a switch of all to transmit, and the table's
entry for the command's id (spec/41_direction.md R94). -/
theorem selFor_eq_ok {s : State} {d : Direction} {v : Byte} : selFor d s = .ok v ↔
    (s.cfg.dirMode = .shared ∧ s.auxSel = v) ∨
    (s.cfg.dirMode = .perDevice ∧
      ((fieldOp s.cur = opInit ∧ 0 = v) ∨
       (fieldOp s.cur ≠ opInit ∧ (d = .transmit ∧ (fieldOp s.cur = opSwAllTx ∨ fieldAll s.cur = true)) ∧ s.cfg.selAll = v) ∨
       (fieldOp s.cur ≠ opInit ∧ ¬ (d = .transmit ∧ (fieldOp s.cur = opSwAllTx ∨ fieldAll s.cur = true)) ∧
         s.cfg.sel[(fieldId s.cur).toNat]? = some v))) := by
  unfold selFor selLookup
  cases hm : s.cfg.dirMode with
  | shared => simp
  | perDevice =>
    by_cases h1 : fieldOp s.cur = opInit
    · simp [h1]
    · by_cases h2 : d = .transmit ∧ (fieldOp s.cur = opSwAllTx ∨ fieldAll s.cur = true)
      · simp [h1, h2]
      · cases h3 : s.cfg.sel[(fieldId s.cur).toNat]? <;> simp [h1, h2]

theorem swtxA_eq_next {s t : State} : swtxA s = .next t ↔
    ∃ v, selFor .transmit s = .ok v ∧ { s with rxEn := false, auxSel := v, ph := .swtxB } = t := by
  simp [swtxA, orFault_eq_next]

theorem swrxA_eq_next {s t : State} : swrxA s = .next t ↔
    ∃ v, selFor .receive s = .ok v ∧ { s with txEn := false, auxSel := v, ph := .swrxB } = t := by
  simp [swrxA, orFault_eq_next]

theorem swtxB_eq_next {s t : State} : swtxB s = .next t ↔
    (switchOnly s.cur = true ∧ succeed 0 (emptyCapture { s with txEn := true, dir := .transmit }) = t) ∨
    (switchOnly s.cur = false ∧ { emptyCapture { s with txEn := true, dir := .transmit } with ph := .send } = t) := by
  unfold swtxB
  cases h : switchOnly s.cur <;> simp

theorem swrxB_eq_next {s t : State} : swrxB s = .next t ↔
    (fieldOp s.cur = opGetReg ∧
      { readerInit (responseSize (fieldDataLo s.cur)) (emptyCapture { s with rxEn := true, dir := .receive }) with ph := .read }
        = t) ∨
    (fieldOp s.cur ≠ opGetReg ∧ succeed 0 (emptyCapture { s with rxEn := true, dir := .receive }) = t) := by
  unfold swrxB
  by_cases h : fieldOp s.cur = opGetReg <;> simp [h]

/-- `SEND` (spec/44_serializer.md R140): stall, or emit one byte and stay, end the command, or go on to the switch. -/
theorem sendStep_eq_next {s t : State} : sendStep s = .next t ↔
    (s.pins.txReady = false ∧ s = t) ∨
    (s.pins.txReady = true ∧ ∃ b, readByte .txbuf s s.txpos = .ok b ∧
      ((s.txpos + 1 ≠ s.txlen ∧ { emit b s with txpos := s.txpos + 1 } = t) ∨
       (s.txpos + 1 = s.txlen ∧ fieldAll s.cur = true ∧ succeed 0 { emit b s with txpos := s.txpos + 1 } = t) ∨
       (s.txpos + 1 = s.txlen ∧ fieldAll s.cur = false ∧ { emit b s with txpos := s.txpos + 1, ph := .swrxA } = t))) := by
  unfold sendStep
  cases h : s.pins.txReady with
  | false => simp
  | true =>
    simp only [if_true, orFault_eq_next, Host.Outcome.next.injEq]
    by_cases h1 : s.txpos + 1 = s.txlen <;> cases h2 : fieldAll s.cur <;> simp [h1]

/-- `Classify` (spec/43_framer.md R117): skip, or store the byte. -/
theorem classify_eq_next {b : Byte} {s t : State} : classify b s = .next t ↔
    ((notFrameStart s.cnt b = true ∨ duplicateSync s.cnt b = true) ∧ s = t) ∨
    (notFrameStart s.cnt b = false ∧ duplicateSync s.cnt b = false ∧ s.cnt < s.cfg.capDepth ∧
      { s with asm := Memory.write s.asm s.cnt b, cnt := s.cnt + 1, ph := if s.cnt + 1 = s.expect then .check else s.ph } = t) := by
  unfold classify
  cases h1 : notFrameStart s.cnt b <;> cases h2 : duplicateSync s.cnt b <;>
    simp [orFault_eq_next, writeAsm_eq_ok]

/-- `READ` (spec/43_framer.md R116): consume a byte, fail, or count an empty poll. -/
theorem readStep_eq_next {s t : State} : readStep s = .next t ↔
    (s.rd < s.wr ∧ ∃ b, readByte .cap s s.rd = .ok b ∧ classify b { s with rd := s.rd + 1, waitc := 0 } = .next t) ∨
    (¬ s.rd < s.wr ∧ s.ovf = true ∧ raiseFail .overflow s = t) ∨
    (¬ s.rd < s.wr ∧ s.ovf = false ∧ s.waitc = s.cfg.waitBudget ∧ raiseFail .timeout s = t) ∨
    (¬ s.rd < s.wr ∧ s.ovf = false ∧ s.waitc ≠ s.cfg.waitBudget ∧ { s with waitc := s.waitc + 1 } = t) := by
  unfold readStep byteAvailable budgetSpent
  by_cases h1 : s.rd < s.wr
  · simp [h1, orFault_eq_next]
  · cases h2 : s.ovf <;> by_cases h3 : s.waitc = s.cfg.waitBudget <;> simp [h1, h3]

/-- `CHECK` (spec/43_framer.md R124, spec/45_register_access_init.md R152): accept the frame, or fail. -/
theorem checkStep_eq_next {s t : State} : checkStep s = .next t ↔ ∃ covered, readBytes .asm s 2 (s.expect - 2) = .ok covered ∧
    ((frameSumOk covered = false ∧ raiseFail .checksum s = t) ∨
     (frameSumOk covered = true ∧ ∃ length, readByte .asm s 3 = .ok length ∧
       ((fieldOp s.cur ≠ opGetReg ∧
          succeed 0 { s with frameValid := true, lenOk := lengthAgrees length s.expect } = t) ∨
        (fieldOp s.cur = opGetReg ∧ ∃ status v, readByte .asm s 4 = .ok status ∧ registerValue s = .ok v ∧
          succeed v { s with frameValid := true, lenOk := lengthAgrees length s.expect, lasterr := status } = t)))) := by
  unfold checkStep getRegFinish
  rw [orFault_eq_next]
  refine exists_congr fun covered => and_congr_right fun _ => ?_
  cases h1 : frameSumOk covered with
  | false => simp
  | true =>
    by_cases h2 : fieldOp s.cur = opGetReg <;> simp [h2, orFault_eq_next]

end Sys2Proof.Machine
end

