-- ==== Sys2Proof/Laws/Step.lean ====
section
/-! SUPPORT. What one step can do: a command's acceptance, an engine step, a cycle, a frame on the line. -/

namespace Sys2Proof.Machine

/-- The acceptance action of each command (spec/10_state.md R29 names the rule of each); a frame has none. -/
def acceptAction (i : Instr) (t : State) : State :=
  match i with
  | .init baud => latch (initWord baud) .swrxA { t with baud := baud, cnt := 0, frameValid := false, lenOk := false }
  | .swTx id => latch (commandWord opSwTx false id 0 0) .swtxA t
  | .swRx id => latch (commandWord opSwRx false id 0 0) .swrxA t
  | .swAllTx => latch (commandWord opSwAllTx false 0 0 0) .swtxA t
  | .buildRead id addr len =>
    acceptSend (commandWord opBuildRead false id addr (zext16 len)) id t.cfg.instRead [addr, len] t
  | .buildWrite all id addr val =>
    acceptSend (commandWord opBuildWrite all id addr (zext16 val)) id t.cfg.instWrite [addr, val] t
  | .buildWrite2 all id addr val =>
    acceptSend (commandWord opBuildWrite2 all id addr val) id t.cfg.instWrite [addr, lowByte val, highByte val] t
  | .readPacket n => latch (commandWord opReadPacket false 0 0 (zext16 n)) .read (readerInit n.toNat t)
  | .getReg id addr width =>
    acceptSend (commandWord opGetReg false id addr (zext16 width)) id t.cfg.instRead [addr, width] t
  | .setReg id addr val =>
    acceptSend (commandWord opSetReg false id addr (zext16 val)) id t.cfg.instWrite [addr, val] t
  | .setReg2 id addr val =>
    acceptSend (commandWord opSetReg2 false id addr val) id t.cfg.instWrite [addr, lowByte val, highByte val] t
  | .getLastError => succeed (zext16 t.lasterr) (latch (commandWord opGetLastError false 0 0 0) .idle t)
  | .frameReadReq _ _ _ _ => t
  | .frameWrite1Req _ _ _ _ => t
  | .frameWrite2Req _ _ _ _ => t
  | .frameResponse _ _ _ _ _ => t

/-- In `IDLE` a command in range has its acceptance action, one out of range fails with `BADCMD`. -/
theorem exec_idle {i : Instr} {s : State} (hc : isCommand i = true) (h : s.ph = .idle) :
    exec i s = .next (if wellFormed s.cfg i then acceptAction i (clearStrobe s) else raiseFail .badCmd (clearStrobe s)) := by
  cases i <;> first
    | (simp only [exec, execInit, execSwTx, execSwRx, execSwAllTx, execBuildRead, execBuildWrite, execBuildWrite2,
        execReadPacket, execGetReg, execSetReg, execSetReg2, execGetLastError, engineCycle, h]; rfl)
    | exact absurd hc Bool.false_ne_true

/-- What happens in `IDLE` does not matter in another phase. -/
theorem engineCycle_busy {s : State} (f g : State → Result) (h : s.ph ≠ .idle) : engineCycle f s = engineCycle g s := by
  unfold engineCycle
  split <;> first | rfl | contradiction

/-- While a command is in progress a presented command is ignored and the engine goes on. -/
theorem exec_busy {i : Instr} {s : State} (hc : isCommand i = true) (h : s.ph ≠ .idle) :
    exec i s = engineCycle .next s := by
  cases i <;> first
    | exact engineCycle_busy _ _ h
    | exact absurd hc Bool.false_ne_true

theorem mustBeZero_eq_ok {zero : Bool} {why : DecodeError} {x : Except DecodeError Instr} {i : Instr} :
    mustBeZero zero why x = .ok i ↔ zero = true ∧ x = .ok i := by
  cases zero <;> simp [mustBeZero]

/-- A command or a refusal: what the branches of the command decoder keep. -/
theorem isCommand_of_mustBeZero {zero : Bool} {why : DecodeError} {x : Except DecodeError Instr}
    (hx : ∀ i, x = .ok i → isCommand i = true) : ∀ i, mustBeZero zero why x = .ok i → isCommand i = true :=
  fun i h => hx i (mustBeZero_eq_ok.1 h).2

theorem isCommand_of_ite {c : Prop} [Decidable c] {x y : Except DecodeError Instr}
    (hx : ∀ i, x = .ok i → isCommand i = true) (hy : ∀ i, y = .ok i → isCommand i = true) :
    ∀ i, (if c then x else y) = .ok i → isCommand i = true := by
  split
  · exact hx
  · exact hy

theorem isCommand_of_ok {j : Instr} (h : isCommand j = true) : ∀ i, Except.ok (ε := DecodeError) j = .ok i → isCommand i = true := by
  rintro i ⟨⟩
  exact h

/-- A command word decodes to a command. -/
theorem isCommand_of_decodeCommand {w : Word40} {i : Instr} (h : decodeCommand w = .ok i) : isCommand i = true := by
  revert i
  suffices hw : ∀ i, decodeCommand w = .ok i → isCommand i = true from fun {i} h => hw i h
  dsimp only [decodeCommand]
  refine isCommand_of_mustBeZero ?_
  repeat' first
    | exact isCommand_of_ok rfl
    | refine isCommand_of_mustBeZero ?_
    | refine isCommand_of_ite ?_ ?_
    | exact fun _ h => nomatch h

/-- The engine step in `IDLE`: nothing, an acceptance, or a refusal with `BADCMD`. -/
theorem engineStep_idle {s : State} (h : s.ph = .idle) :
    (s.pins.cmdValid = false ∧ engineStep s = .next (clearStrobe s)) ∨
    (s.pins.cmdValid = true ∧ engineStep s = .next (raiseFail .badCmd (clearStrobe s))) ∨
    (∃ i, s.pins.cmdValid = true ∧ decodeCommand s.pins.cmdWord = .ok i ∧ wellFormed s.cfg i = true ∧
      engineStep s = .next (acceptAction i (clearStrobe s))) := by
  unfold engineStep
  cases hv : s.pins.cmdValid with
  | false => simp [engineCycle, h]
  | true =>
    cases hd : decodeCommand s.pins.cmdWord with
    | error e => simp [engineCycle, h, acceptIf]
    | ok i =>
      have he := exec_idle (s := s) (isCommand_of_decodeCommand hd) h
      cases hw : wellFormed s.cfg i with
      | false => simp [he, hw]
      | true => exact .inr (.inr ⟨i, rfl, rfl, hw, by simpa [hw] using he⟩)

/-- The engine step in every other phase: the phase step, whatever word is presented. -/
theorem engineStep_busy {s : State} (h : s.ph ≠ .idle) : engineStep s = engineCycle .next s := by
  unfold engineStep
  split
  · split
    · rename_i hd
      exact exec_busy (isCommand_of_decodeCommand hd) h
    · exact engineCycle_busy _ _ h
  · rfl

/-- The bytes of a frame are received one by one, whatever frame they spell. -/
theorem runLine_eq (bytes : List Byte) (s : State) : runLine bytes s = .next (receiveBytes bytes s) := by
  unfold runLine
  cases h : decodeFrame s.cfg bytes with
  | error e => rfl
  | ok i =>
    match bytes, h with
    | s0 :: s1 :: id :: length :: inst :: r :: rs, h =>
      simp only [decodeFrame] at h
      split at h
      · rename_i hs
        obtain ⟨rfl, rfl⟩ := hs
        split at h
        · rename_i j hj
          cases h
          unfold requestOf at hj
          split at hj
          · rename_i a x c heq
            rw [heq]
            split at hj
            · rename_i h1
              obtain ⟨rfl, rfl⟩ := h1
              cases hj; rfl
            · split at hj
              · rename_i h1
                obtain ⟨rfl, rfl⟩ := h1
                cases hj; rfl
              · simp at hj
          · rename_i a lo hi c heq
            rw [heq]
            split at hj
            · rename_i h1
              obtain ⟨rfl, rfl⟩ := h1
              cases hj
              simp only [exec, execFrameWrite2Req, write2ReqBytes, lowByte_word16, highByte_word16]
            · simp at hj
          · simp at hj
        · cases h
          have : (r :: rs).dropLast ++ [(r :: rs).getLastD 0] = r :: rs := by
            rw [List.getLastD_cons, ← List.getLast_eq_getLastD (h := by simp)]
            exact List.dropLast_append_getLast (by simp)
          simp only [exec, execFrameResponse, responseBytes, this]
      · simp at h
    | [], h => simp [decodeFrame] at h
    | [_], h => simp [decodeFrame] at h
    | [_, _], h => simp [decodeFrame] at h
    | [_, _, _], h => simp [decodeFrame] at h
    | [_, _, _, _], h => simp [decodeFrame] at h
    | [_, _, _, _, _], h => simp [decodeFrame] at h

/-- What a step can do: a frame arrives; a reset; or an engine step, then a receive step (spec/10_state.md R15, R16). -/
theorem step_eq_next {s t : State} : step s = .next t ↔
    (∃ bytes, nextEvent s = .line bytes ∧ receiveBytes bytes (advance s) = t) ∨
    (∃ p, nextEvent s = .cycle p ∧ p.rst = true ∧
      resetBlock (if p.rxValid then hear p.rxData (sample p (advance s)) else sample p (advance s)) = t) ∨
    (∃ p u, nextEvent s = .cycle p ∧ p.rst = false ∧ engineStep (sample p (advance s)) = .next u ∧
      rxStep p.rxValid p.rxData u = t) := by
  unfold step
  cases h : nextEvent s with
  | line bytes => simp [runEvent, runLine_eq]
  | cycle p =>
    cases hr : p.rst with
    | false => simp [runEvent, runCycle, hr, andThen_eq_next]
    | true => simp [runEvent, runCycle, hr]; rfl

theorem nextEvent_cons {s : State} {e : Event} {rest : List Event} (h : s.inputs = e :: rest) : nextEvent s = e := by
  simp [nextEvent, h]

end Sys2Proof.Machine
end

