-- ==== Sys2Proof/Tests/Slice0.lean ====
section
/-! SUPPORT. The model's own tests: words written out from the spec's encodings, terms that WellFormed refuses, single steps with the
values of the spec's examples (spec/95_test_vectors.md and the rules named), and for every statement a witness of its hypotheses. -/

namespace Sys2Proof.Tests

open Machine Safety Words

/-- The parameters of the tests: the defaults of R6 with a wait budget of 3. -/
def cfg : Params := Config.defaults 3

/-- A block right after reset. -/
def base : State := State.resetWith cfg []

/-- What is in one field of a next state. -/
def fieldAfter {α : Type} (r : Result) (f : State → α) : Option α :=
  match r with
  | .next t => some (f t)
  | _ => none

/-- The first `n` bytes of an array. -/
def firstBytes (m : Memory) (n : Nat) : List Byte := (List.range n).filterMap (Memory.read m)

/-! ## Encoding: words from R60, R62, R80; frames from spec/95_test_vectors.md -/

theorem test_decode_init : decodeTableWord 40 0x10000F4240 = some (.init 1000000) := by decide
theorem test_decode_swTx : decodeTableWord 40 0x2001000000 = some (.swTx 1) := by decide
theorem test_decode_swRx : decodeTableWord 40 0x30FE000000 = some (.swRx 0xFE) := by decide
theorem test_decode_swAllTx : decodeTableWord 40 0x4000000000 = some .swAllTx := by decide
theorem test_decode_buildRead : decodeTableWord 40 0x50011E0002 = some (.buildRead 1 0x1E 2) := by decide
theorem test_decode_buildWrite : decodeTableWord 40 0x6001200005 = some (.buildWrite false 1 0x20 5) := by decide
theorem test_decode_buildWrite_all : decodeTableWord 40 0x68FE190001 = some (.buildWrite true 0xFE 0x19 1) := by decide
theorem test_decode_buildWrite2 : decodeTableWord 40 0x70011E1234 = some (.buildWrite2 false 1 0x1E 0x1234) := by decide
theorem test_decode_buildWrite2_all : decodeTableWord 40 0x78FE1E0200 = some (.buildWrite2 true 0xFE 0x1E 0x0200) := by decide
theorem test_decode_readPacket : decodeTableWord 40 0x8000000007 = some (.readPacket 7) := by decide
theorem test_decode_getReg : decodeTableWord 40 0x9001200001 = some (.getReg 1 0x20 1) := by decide
theorem test_decode_setReg : decodeTableWord 40 0xA001200005 = some (.setReg 1 0x20 5) := by decide
theorem test_decode_setReg2 : decodeTableWord 40 0xB0011E1234 = some (.setReg2 1 0x1E 0x1234) := by decide
theorem test_decode_getLastError : decodeTableWord 40 0xC000000000 = some .getLastError := by decide
/-- `FF FF 01 04 02 20 01 D7`, first byte in the low bits. -/
theorem test_decode_frameReadReq : decodeTableWord 64 0xD70120020401FFFF = some (.frameReadReq 1 0x20 1 0xD7) := by decide
/-- `FF FF 01 04 03 20 05 D2`. -/
theorem test_decode_frameWrite1Req : decodeTableWord 64 0xD20520030401FFFF = some (.frameWrite1Req 1 0x20 5 0xD2) := by decide
/-- `FF FF 01 05 03 1E 34 12 92`. -/
theorem test_decode_frameWrite2Req :
    decodeTableWord 72 0x9212341E030501FFFF = some (.frameWrite2Req 1 0x1E 0x1234 0x92) := by decide
/-- `FF FF 01 03 00 05 F6`. -/
theorem test_decode_frameResponse : decodeTableWord 56 0xF605000301FFFF = some (.frameResponse 1 3 0 [5] 0xF6) := by decide

/-- R64: a reserved operation code, a reserved bit, an `all` bit where there is none, a must-be-zero bit, the all-zero word. -/
theorem test_refused_words : [decodeCommand 0x0000000000, decodeCommand 0xD000000000, decodeCommand 0x1100000000,
    decodeCommand 0xA801200005, decodeCommand 0x2001000001, decodeCommand 0xA001201234, decodeCommand 0xC000000001] =
    [.error .reservedOp, .error .reservedOp, .error .reservedBits, .error .allBit, .error .zeroBits, .error .zeroBits,
      .error .zeroBits] := by decide

/-- Too few bytes, and no sync marker, spell no frame. -/
theorem test_refused_frames : [decodeFrame cfg [0xFF, 0xFF, 1, 2, 0], decodeFrame cfg [0xFF, 0, 1, 2, 0, 0xFC]] =
    [.error .tooShort, .error .badSync] := by decide

/-! ## WellFormed: an ill-formed term for each check -/

theorem test_ill_ids : ([.swTx 0xFF, .swRx 0xFF, .buildRead 0xFF 0 0, .buildWrite false 0xFF 0 0, .buildWrite2 true 0xFF 0 0,
    .getReg 0xFF 0 1, .setReg 0xFF 0 0, .setReg2 0xFF 0 0, .frameReadReq 0xFF 0x20 1 0xD9, .frameWrite1Req 0xFF 0x20 5 0xD4,
    .frameWrite2Req 0xFF 0 0 0xF8, .frameResponse 0xFF 2 0 [] 0xFE] : List Instr).all (fun i => !wellFormed cfg i) = true := by
  decide
theorem test_ill_width : (wellFormed cfg (.getReg 1 0 0), wellFormed cfg (.getReg 1 0 3)) = (false, false) := by decide
theorem test_ill_count : (wellFormed cfg (.readPacket 5), wellFormed cfg (.readPacket 33)) = (false, false) := by decide
theorem test_ill_frame_sums : ([.frameReadReq 1 0x20 1 0xD6, .frameWrite1Req 1 0x20 5 0xD3, .frameWrite2Req 1 0x1E 0x1234 0x91,
    .frameResponse 1 3 0 [5] 0xF7] : List Instr).all (fun i => !wellFormed cfg i) = true := by decide
/-- Row F9: the sum is right, LENGTH disagrees with the size. -/
theorem test_ill_response_length : wellFormed cfg (.frameResponse 1 7 0 [5] 0xF2) = false := by decide
theorem test_well_formed : ([.swTx 0xFE, .readPacket 6, .readPacket 32, .getReg 1 0 2, .frameReadReq 1 0x20 1 0xD7,
    .frameWrite2Req 1 0x1E 0x1234 0x92, .frameResponse 1 3 0 [5] 0xF6] : List Instr).all (wellFormed cfg) = true := by decide

/-! ## Memory and the checksum -/

theorem test_write_then_read : Memory.read (Memory.write [(1, 7), (4, 9)] 3 5) 3 = some 5 := by decide
/-- R92. -/
theorem test_csum : [csum [0x01, 0x04, 0x03, 0x20, 0x05], csum [0xFD, 0x04, 0x03, 0xFF, 0xFF], csum [0, 4, 3, 0xF8, 0],
    csum [0xF9, 4, 3, 0, 0]] = [0xD2, 0xFD, 0x00, 0xFF] := by decide

/-! ## One instruction each -/

/-- R156. -/
theorem test_init : fieldAfter (exec (.init 1000000) base) (fun t => (t.baud, t.ph, t.cur)) =
    some (0x000F4240, .swrxA, 0x10000F4240) := by decide
/-- R99. -/
theorem test_swTx : fieldAfter (exec (.swTx 1) base) (fun t => (t.ph, t.cur)) = some (.swtxA, 0x2001000000) := by decide
/-- R100. -/
theorem test_swRx : fieldAfter (exec (.swRx 0) base) (fun t => (t.ph, t.cur)) = some (.swrxA, 0x3000000000) := by decide
/-- R101. -/
theorem test_swAllTx : fieldAfter (exec .swAllTx base) (fun t => (t.ph, t.cur)) = some (.swtxA, 0x4000000000) := by decide
/-- R136. -/
theorem test_buildRead : fieldAfter (exec (.buildRead 1 0x20 1) base) (fun t => firstBytes t.txbuf 9) =
    some [0xFF, 0xFF, 0x01, 0x04, 0x02, 0x20, 0x01, 0xD7] := by decide
/-- R137. -/
theorem test_buildWrite : fieldAfter (exec (.buildWrite false 1 0x20 5) base) (fun t => firstBytes t.txbuf 9) =
    some [0xFF, 0xFF, 0x01, 0x04, 0x03, 0x20, 0x05, 0xD2] := by decide
/-- Row S11. -/
theorem test_buildWrite_all : fieldAfter (exec (.buildWrite true 0xFE 0x19 1) base) (fun t => (firstBytes t.txbuf 9, t.cur)) =
    some ([0xFF, 0xFF, 0xFE, 0x04, 0x03, 0x19, 0x01, 0xE0], 0x68FE190001) := by decide
/-- R138. -/
theorem test_buildWrite2 : fieldAfter (exec (.buildWrite2 false 1 0x1E 0x1234) base) (fun t => (firstBytes t.txbuf 9, t.txlen)) =
    some ([0xFF, 0xFF, 0x01, 0x05, 0x03, 0x1E, 0x34, 0x12, 0x92], 9) := by decide
/-- R114, R115. -/
theorem test_readPacket : fieldAfter (exec (.readPacket 7) { base with cnt := 3, frameValid := true, wr := 2, rd := 1 })
    (fun t => (t.expect, t.cnt, t.frameValid, t.wr, t.rd, t.ph)) = some (7, 0, false, 2, 1, .read) := by decide
/-- R148. -/
theorem test_getReg : fieldAfter (exec (.getReg 1 0x1E 2) base) (fun t => firstBytes t.txbuf 9) =
    some [0xFF, 0xFF, 0x01, 0x04, 0x02, 0x1E, 0x02, 0xD8] := by decide
/-- R153. -/
theorem test_setReg : fieldAfter (exec (.setReg 1 0x20 5) base) (fun t => (firstBytes t.txbuf 9, t.cur)) =
    some ([0xFF, 0xFF, 0x01, 0x04, 0x03, 0x20, 0x05, 0xD2], 0xA001200005) := by decide
/-- R154. -/
theorem test_setReg2 : fieldAfter (exec (.setReg2 1 0x1E 0x1234) base) (fun t => (firstBytes t.txbuf 9, t.cur)) =
    some ([0xFF, 0xFF, 0x01, 0x05, 0x03, 0x1E, 0x34, 0x12, 0x92], 0xB0011E1234) := by decide
/-- R155. -/
theorem test_getLastError : fieldAfter (exec .getLastError { base with lasterr := 0x24 })
    (fun t => (t.rspOk, t.rspKind, t.rspValue, t.rspValid, t.lasterr)) = some (true, .none, 0x0024, true, 0x24) := by decide
/-- Rows C1, C5: with the receiver on the bytes are captured, with it off they are lost. -/
theorem test_frameReadReq : fieldAfter (exec (.frameReadReq 1 0x20 1 0xD7) { base with rxEn := true }) (fun t => firstBytes t.cap 9) =
    some [0xFF, 0xFF, 0x01, 0x04, 0x02, 0x20, 0x01, 0xD7] := by decide
theorem test_frameWrite1Req : fieldAfter (exec (.frameWrite1Req 1 0x20 5 0xD2) base) (fun t => (t.wr, t.rxin.length)) = some (0, 8) := by
  decide
theorem test_frameWrite2Req : fieldAfter (exec (.frameWrite2Req 1 0x1E 0x1234 0x92) { base with rxEn := true })
    (fun t => firstBytes t.cap 9) = some [0xFF, 0xFF, 0x01, 0x05, 0x03, 0x1E, 0x34, 0x12, 0x92] := by decide
/-- Rows C2, C3: the byte that finds the buffer full is dropped and sets `OVF`. -/
theorem test_frameResponse : fieldAfter (exec (.frameResponse 1 3 0 [5] 0xF6) { base with rxEn := true, wr := 26 })
    (fun t => (t.wr, t.ovf, Memory.read t.cap 31)) = some (32, true, some 5) := by decide
/-- R65: out of range, the failure and nothing else. -/
theorem test_badcmd : exec (.getReg 1 0x20 3) base = .next (failed .badCmd base) := rfl

/-! ## Phases -/

/-- Row D7: `PER_DEVICE`, the selector of id 5 in the step that disables the receiver. -/
theorem test_swtxA : fieldAfter (engineStep
    { base with cfg := { cfg with dirMode := .perDevice }, rxEn := true, wr := 3, ph := .swtxA, cur := 0x2005000000 })
    (fun t => (t.rxEn, t.auxSel, t.wr, t.ph)) = some (false, 5, 3, .swtxB) := by decide
/-- Row D1: the buffer is emptied in the step that enables the transmitter. -/
theorem test_swtxB : fieldAfter (engineStep { base with wr := 5, rd := 2, ph := .swtxB, cur := 0x2001000000 })
    (fun t => (t.dir, t.txEn, t.wr, t.rd, t.ph, t.rspOk)) = some (.transmit, true, 0, 0, .idle, true) := by decide
/-- Row D10: `INIT` puts the selector to 0. -/
theorem test_swrxA : fieldAfter (engineStep { base with
      cfg := { cfg with dirMode := .perDevice }, dir := .transmit, txEn := true, auxSel := 0xFF, ph := .swrxA, cur := 0x1000002580 })
    (fun t => (t.dir, t.txEn, t.auxSel, t.ph)) = some (.transmit, false, 0, .swrxB) := by decide
/-- R149: the reader of a `GET_REG` of width 2 expects 8 bytes. -/
theorem test_swrxB : fieldAfter (engineStep { base with wr := 4, ph := .swrxB, cur := 0x90011E0002 })
    (fun t => (t.dir, t.rxEn, t.wr, t.expect, t.ph)) = some (.receive, true, 0, 8, .read) := by decide
/-- R140: the last byte of a frame with `all = 1` ends the command. -/
theorem test_send_last_all : fieldAfter (engineStep { base with
      txbuf := [(7, 0xE0)], txlen := 8, txpos := 7, ph := .send, cur := 0x68FE190001, pins := { Pins.quiet with txReady := true } })
    (fun t => (t.txlog, t.txpos, t.ph, t.rspOk)) = some ([0xE0], 8, .idle, true) := by decide
/-- R140: a stalled transport changes nothing. -/
theorem test_send_stalled : engineStep { base with txbuf := [(0, 0xFF)], txlen := 8, ph := .send } =
    .next { base with txbuf := [(0, 0xFF)], txlen := 8, ph := .send } := rfl
/-- R118: `0xFF` at position 2 is skipped. -/
theorem test_read_skip : fieldAfter (engineStep { base with cap := [(0, 0xFF)], wr := 1, cnt := 2, expect := 7, ph := .read })
    (fun t => (t.rd, t.cnt, t.ph)) = some (1, 2, .read) := by decide
/-- R117: the last byte leads to `CHECK`. -/
theorem test_read_last : fieldAfter (engineStep { base with cap := [(0, 0xFF)], wr := 1, cnt := 6, expect := 7, ph := .read, waitc := 2 })
    (fun t => (t.rd, t.cnt, t.ph, t.waitc, Memory.read t.asm 6)) = some (1, 7, .check, 0, some 0xFF) := by decide
/-- R170: overflow is reported in preference to a timeout. -/
theorem test_read_overflow : fieldAfter (engineStep { base with ovf := true, waitc := 3, expect := 7, ph := .read })
    (fun t => (t.rspOk, t.rspKind, t.rspValue)) = some (false, .overflow, 0xFFFF) := by decide
/-- R160, cycle 21. -/
theorem test_check_getReg : fieldAfter (engineStep { base with
      asm := [(0, 0xFF), (1, 0xFF), (2, 1), (3, 3), (4, 0), (5, 5), (6, 0xF6)], cnt := 7, expect := 7, ph := .check,
      cur := 0x9001200001, lasterr := 9 })
    (fun t => (t.frameValid, t.lenOk, t.lasterr, t.rspOk, t.rspValue)) = some (true, true, 0, true, 0x0005) := by decide
/-- R129 (g): a wrong sum. -/
theorem test_check_wrong_sum : fieldAfter (engineStep { base with
      asm := [(0, 0xFF), (1, 0xFF), (2, 1), (3, 3), (4, 0), (5, 5), (6, 0xF7)], cnt := 7, expect := 7, ph := .check,
      cur := 0x8000000007 })
    (fun t => (t.frameValid, t.rspOk, t.rspKind, t.ph)) = some (false, false, .checksum, .idle) := by decide
/-- R13: the frame window. -/
theorem test_frame_window : ((outputs { base with asm := [(0, 0xFF), (1, 7)], cnt := 1 } 0).frmByte,
    (outputs { base with asm := [(0, 0xFF), (1, 7)], cnt := 1 } 1).frmByte) = (some 0xFF, some 0) := by decide
/-- The word and the frame that `withFetchWord` places run in the next step. -/
theorem test_fetch_command : fieldAfter (step (State.reset.withFetchWord 40 0xA001200005)) (fun t => (t.ph, t.cur)) =
    some (.swtxA, 0xA001200005) := by decide
theorem test_fetch_frame : fieldAfter (step (State.reset.withFetchWord 64 0xD20520030401FFFF)) (fun t => t.rxin) =
    some [0xFF, 0xFF, 0x01, 0x04, 0x03, 0x20, 0x05, 0xD2] := by decide

/-! ## Witnesses: for every statement with hypotheses, concrete states and operands that meet them, clause by clause -/

/-- A ready transport, nothing else. -/
def ready : Pins := { Pins.quiet with txReady := true }

/-- A byte arrives. -/
def arriving (b : Byte) : Pins := { Pins.quiet with rxValid := true, rxData := b }

/-- The next step is this cycle. -/
def next (p : Pins) (s : State) : State := { s with inputs := [.cycle p] }

/-- The smallest capacity and the smallest wait budget. -/
def small : Params := { cfg with capDepth := 8, waitBudget := 1 }

theorem cfg_legal : cfg.Legal :=
  ⟨by decide, by decide, by decide, by decide, by decide, by decide, by simp [cfg, Config.defaults, Config.identitySel],
    fun v _ => v.isLt, by decide⟩

theorem small_legal : small.Legal :=
  ⟨by decide, by decide, by decide, by decide, by decide, by decide, by simp [small, cfg, Config.defaults, Config.identitySel],
    fun v _ => v.isLt, by decide⟩

theorem not_reset {s : State} {p : Pins} (h : nextEvent s = .cycle p) (hr : p.rst = false) : ¬ ResetNext s := by
  rintro ⟨q, hq, hq'⟩
  rw [h] at hq
  cases hq
  simp [hr] at hq'

theorem not_empties {s : State} {p : Pins} (h : nextEvent s = .cycle p) (hr : p.rst = false) (hp : s.ph ≠ .swtxB ∧ s.ph ≠ .swrxB) :
    ¬ EmptiesNext s := by
  rintro (hq | ⟨q, -, hq | hq⟩)
  · exact not_reset h hr hq
  · exact hp.1 hq
  · exact hp.2 hq

theorem witness_DecodeEncodeRoundTrip : toldApart cfg (.setReg 1 0x20 5) = true ∧ toldApart cfg (.frameWrite1Req 1 0x20 5 0xD2) = true ∧
    toldApart cfg (.frameResponse 1 3 0 [5] 0xF6) = true ∧ toldApart cfg (.frameResponse 1 4 2 [0x20, 1] 0xD7) = false ∧
    toldApart { cfg with instRead := 3 } (.frameWrite1Req 1 0x20 5 0xD2) = false := by decide

theorem witness_EncodeDecodeKeepsEveryBit : decode cfg (.command 0xA001200005) = .ok (.setReg 1 0x20 5) ∧
    decode cfg (.line [0xFF, 0xFF, 1, 3, 0, 5, 0xF6]) = .ok (.frameResponse 1 3 0 [5] 0xF6) := by decide

theorem witness_EncoderLaysOutTheFields : isCommand (.buildWrite true 0xFE 0x19 1) = true := by decide

theorem witness_DecoderFollowsTheMaskTable : decodeCommand 0x68FE190001 = .ok (.buildWrite true 0xFE 0x19 1) ∧
    ∃ r ∈ commandRows, (0x68FE190001 : Word40) &&& r.mask = r.pattern := by decide

theorem witness_RefusedWordsFailAndChangeNothing :
    ∃ s : State, s.ph = .idle ∧ s.pins.cmdValid = true ∧ ∀ i, decodeCommand s.pins.cmdWord ≠ .ok i := by
  refine ⟨{ base with pins := present 0xD000000000 }, rfl, rfl, fun i h => ?_⟩
  have : decodeCommand 0xD000000000 = .error .reservedOp := by decide
  simp only [present, this] at h
  cases h

/-- Each bound from both sides. -/
theorem witness_OperandRangesDecideAcceptance : base.ph = .idle ∧ ¬ InRange base.cfg (.swTx 0xFF) ∧ InRange base.cfg (.swTx 0xFE) ∧
    ¬ InRange base.cfg (.readPacket 5) ∧ InRange base.cfg (.readPacket 6) ∧ InRange base.cfg (.readPacket 32) ∧
    ¬ InRange base.cfg (.readPacket 33) ∧ ¬ InRange base.cfg (.getReg 1 0 0) ∧ InRange base.cfg (.getReg 1 0 1) ∧
    InRange base.cfg (.getReg 1 0 2) ∧ ¬ InRange base.cfg (.getReg 1 0 3) ∧ InRange base.cfg (.init 0) := by
  simp only [InRange]
  decide

theorem witness_BusyBlockIgnoresTheWord : ({ base with ph := .read } : State).ph ≠ .idle ∧ isCommand (.swTx 1) = true ∧
    isCommand .getLastError = true := by decide

theorem witness_SwitchCommandsAreAccepted : base.ph = .idle ∧ (0xFE : Byte) ≠ 0xFF := by decide

/-- Widths 1 and 2 of `GET_REG`, and a count that only `BUILD_READ` may have. -/
theorem witness_ReadRequestsAreBuilt : base.ph = .idle ∧ (0 : Byte) ≠ 0xFF ∧ ((1 : Byte) = 1 ∨ (1 : Byte) = 2) ∧
    ((2 : Byte) = 1 ∨ (2 : Byte) = 2) := by decide

theorem witness_ByteWriteRequestsAreBuilt : base.ph = .idle ∧ (0xFE : Byte) ≠ 0xFF := by decide

theorem witness_WordWriteRequestsAreBuilt : base.ph = .idle ∧ (0xFE : Byte) ≠ 0xFF := by decide

theorem witness_ReadPacketAndInitAreAccepted : base.ph = .idle ∧ 6 ≤ (6 : Byte).toNat ∧ (6 : Byte).toNat ≤ base.cfg.capDepth ∧
    6 ≤ (32 : Byte).toNat ∧ (32 : Byte).toNat ≤ base.cfg.capDepth := by decide

theorem witness_GetLastErrorReturnsTheStatus : base.ph = .idle := rfl

/-- The receiver off; on with room for all; on with room for some; on with a full buffer. -/
theorem witness_WireFramesAreCaptured : base.rxEn = false ∧ ({ base with rxEn := true } : State).rxEn = true ∧
    ({ base with rxEn := true, wr := 26 } : State).wr = 26 ∧ ({ base with rxEn := true, wr := 32 } : State).wr = base.cfg.capDepth := by
  decide

theorem witness_StepRunsTheDecodedInstruction :
    (∃ (s : State) (p : Pins) (rest : List Event) (i : Instr), s.inputs = .cycle p :: rest ∧ p.rst = false ∧ p.cmdValid = true ∧ decodeCommand p.cmdWord = .ok i) ∧
    (∃ (s : State) (bytes : List Byte) (rest : List Event) (i : Instr), s.inputs = .line bytes :: rest ∧
      decodeFrame s.cfg bytes = .ok i) ∧
    (∃ c i, imageOf 40 0xA001200005 = .command c ∧ decodeCommand c = .ok i) ∧
    (∃ bytes i, imageOf 56 0xF605000301FFFF = .line bytes ∧ decodeFrame base.cfg bytes = .ok i) :=
  ⟨⟨next (present 0xA001200005) base, present 0xA001200005, [], .setReg 1 0x20 5, rfl, rfl, rfl, by decide⟩,
   ⟨{ base with inputs := [.line [0xFF, 0xFF, 1, 3, 0, 5, 0xF6]] }, _, _, .frameResponse 1 3 0 [5] 0xF6, rfl, by decide⟩,
   ⟨0xA001200005, .setReg 1 0x20 5, by decide, by decide⟩,
   ⟨[0xFF, 0xFF, 1, 3, 0, 5, 0xF6], .frameResponse 1 3 0 [5] 0xF6, by decide, by decide⟩⟩

/-- A reset cycle; a cycle without reset; a byte in the cycle of `SWRX_B`; the cycle of `SWTX_A`; a byte in the cycle of an empty poll,
the last byte there is room for, the last poll within the budget. -/
theorem witness_CycleIsEngineThenReceive :
    (next { Pins.quiet with rst := true } base).inputs = .cycle { Pins.quiet with rst := true } :: [] ∧
    (∃ s, s = next (arriving 7) { base with ph := .swrxB } ∧ s.ph = .swrxB ∧ 0 < s.cfg.capDepth) ∧
    (∃ s t, s = next (arriving 7) { base with ph := .swtxA, rxEn := true } ∧ step s = .next t) ∧
    (∃ s, s = next (arriving 7) { base with ph := .read, rxEn := true, rd := 31, wr := 31, waitc := 2 } ∧ s.rd = s.wr ∧
      s.waitc < s.cfg.waitBudget ∧ s.wr < s.cfg.capDepth) :=
  ⟨rfl, ⟨_, rfl, rfl, by decide⟩, ⟨_, _, rfl, rfl⟩, ⟨_, rfl, rfl, by decide, by decide⟩⟩

theorem witness_LateByteDoesNotRescueTheRead : ∃ s, s = next (arriving 7) { base with ph := .read, rxEn := true, waitc := 3 } ∧
    s.ph = .read ∧ s.rd = s.wr ∧ s.ovf = false ∧ s.waitc = s.cfg.waitBudget ∧ s.rxEn = true ∧ s.wr < s.cfg.capDepth :=
  ⟨_, rfl, rfl, rfl, rfl, rfl, rfl, by decide⟩

theorem witness_ResetValues : (next { Pins.quiet with rst := true } base).inputs = .cycle { Pins.quiet with rst := true } :: [] ∧
    ({ Pins.quiet with rst := true } : Pins).rst = true := ⟨rfl, rfl⟩

/-- A selector in each of the four cases of R94. -/
theorem witness_SwitchToTransmitSteps : SelectorFor { base with ph := .swtxA } .transmit 0 ∧
    SelectorFor { base with ph := .swtxA, cfg := { cfg with dirMode := .perDevice }, cur := 0x20FE000000 } .transmit 0xFE ∧
    SelectorFor { base with ph := .swtxA, cfg := { cfg with dirMode := .perDevice }, cur := 0x4000000000 } .transmit 0xFF ∧
    SelectorFor { base with ph := .swtxA, cfg := { cfg with dirMode := .perDevice }, cur := 0x68FE190001 } .transmit 0xFF ∧
    ({ base with ph := .swtxB } : State).ph = .swtxB :=
  ⟨.inl ⟨rfl, rfl⟩, .inr (.inr (.inr ⟨rfl, by decide, by decide, by decide⟩)),
    .inr (.inr (.inl ⟨rfl, by decide, by decide, rfl⟩)), .inr (.inr (.inl ⟨rfl, by decide, by decide, rfl⟩)), rfl⟩

theorem witness_SwitchToReceiveSteps : SelectorFor { base with ph := .swrxA } .receive 0 ∧
    SelectorFor { base with ph := .swrxA, cfg := { cfg with dirMode := .perDevice }, cur := 0x1000002580 } .receive 0 ∧
    SelectorFor { base with ph := .swrxA, cfg := { cfg with dirMode := .perDevice }, cur := 0x3009000000 } .receive 9 ∧
    ({ base with ph := .swrxB, cur := 0x9001200001 } : State).ph = .swrxB :=
  ⟨.inl ⟨rfl, rfl⟩, .inr (.inl ⟨rfl, by decide, rfl⟩), .inr (.inr (.inr ⟨rfl, by decide, by decide, by decide⟩)), rfl⟩

/-- A byte that is not the last, the last byte, and another phase. -/
theorem witness_SendStep : ∃ s u v : State, s.ph = .send ∧ Memory.read s.txbuf s.txpos = some 0xFF ∧ s.txpos < 9 ∧ s.txpos + 1 ≠ s.txlen ∧
    u.ph = .send ∧ Memory.read u.txbuf u.txpos = some 0x92 ∧ u.txpos < 9 ∧ u.txpos + 1 = u.txlen ∧ u.pins.txReady = true ∧
    v.ph ≠ .send :=
  ⟨{ base with ph := .send, txbuf := [(0, 0xFF)], txlen := 8 },
   { base with ph := .send, txbuf := [(8, 0x92)], txlen := 9, txpos := 8, pins := ready }, base, by decide⟩

/-- A byte skipped at position 0, one skipped at position 2, one stored at the last position; the three polls that find none. -/
theorem witness_ReadStep : ∃ a b c d e f : State, (a.ph = .read ∧ a.rd < a.wr ∧ a.rd < a.cfg.capDepth ∧ Memory.read a.cap a.rd = some 1 ∧
      a.cnt = 0) ∧
    (b.ph = .read ∧ b.rd < b.wr ∧ Memory.read b.cap b.rd = some 0xFF ∧ b.cnt = 2) ∧
    (c.ph = .read ∧ c.rd < c.wr ∧ c.rd < c.cfg.capDepth ∧ Memory.read c.cap c.rd = some 0xFF ∧ c.cnt = 31 ∧ c.cnt < c.cfg.capDepth) ∧
    (d.ph = .read ∧ d.wr ≤ d.rd ∧ d.ovf = true) ∧ (e.ph = .read ∧ e.wr ≤ e.rd ∧ e.ovf = false ∧ e.waitc = e.cfg.waitBudget) ∧
    (f.ph = .read ∧ f.wr ≤ f.rd ∧ f.ovf = false ∧ f.waitc ≠ f.cfg.waitBudget) :=
  ⟨{ base with ph := .read, cap := [(0, 1)], wr := 1 }, { base with ph := .read, cap := [(0, 0xFF)], wr := 1, cnt := 2 },
   { base with ph := .read, cap := [(31, 0xFF)], rd := 31, wr := 32, cnt := 31 }, { base with ph := .read, ovf := true },
   { base with ph := .read, waitc := 3 }, { base with ph := .read, waitc := 2 }, by decide⟩

/-- A block in `CHECK` with these bytes assembled from position 2 on. -/
def checking (w : Word40) (l : List Byte) : State :=
  { base with asm := Memory.writeList [] 2 l, cnt := l.length + 2, expect := l.length + 2, ph := .check, cur := w }

/-- A wrong sum, and right sums of a 6-byte frame and of the answers to a `GET_REG` of width 1 and 2. -/
theorem witness_CheckStep :
    ([([1, 3, 0, 5, 0xF7], 0x8000000007), ([1, 2, 0, 0xFC], 0x8000000006), ([1, 3, 0, 5, 0xF6], 0x9001200001),
      ([1, 4, 0, 0x34, 0x12, 0xB4], 0x90011E0002)] : List (List Byte × Word40)).all (fun x =>
        decide (x.1.length = (checking x.2 x.1).expect - 2) && decide (6 ≤ (checking x.2 x.1).expect) &&
        decide ((checking x.2 x.1).expect ≤ (checking x.2 x.1).cfg.capDepth) &&
        decide (∀ k < x.1.length, Memory.read (checking x.2 x.1).asm (2 + k) = x.1[k]?)) = true ∧
    total [1, 3, 0, 5, 0xF7] % 256 ≠ 255 ∧ total [1, 2, 0, 0xFC] % 256 = 255 ∧ total [1, 3, 0, 5, 0xF6] % 256 = 255 ∧
    total [1, 4, 0, 0x34, 0x12, 0xB4] % 256 = 255 := by decide

/-- The receiver off; on with room for one byte; on with a full buffer; and an engine step. -/
theorem witness_ReceiveStep : base.rxEn = false ∧ ({ base with rxEn := true, wr := 31 } : State).wr < base.cfg.capDepth ∧
    base.cfg.capDepth ≤ ({ base with rxEn := true, wr := 32 } : State).wr ∧ ∃ t, engineStep { base with ph := .swtxB } = .next t :=
  ⟨rfl, by decide, by decide, _, rfl⟩

/-- The receiver on with room, on and full, and off. -/
theorem witness_CaptureKeepsArrivalOrder : ∃ s t u v w x : State,
    step s = .next t ∧ ¬ EmptiesNext s ∧ t.rxEn = true ∧ step u = .next v ∧ ¬ EmptiesNext u ∧ v.rxEn = true ∧ u.wr = u.cfg.capDepth ∧
    step w = .next x ∧ ¬ EmptiesNext w ∧ x.rxEn = false :=
  ⟨next (arriving 7) { base with rxEn := true, wr := 31 }, _, next (arriving 7) { base with rxEn := true, wr := 32 }, _,
    next (arriving 7) base, _, rfl, not_empties rfl rfl (by decide), rfl, rfl, not_empties rfl rfl (by decide), rfl, rfl, rfl,
    not_empties rfl rfl (by decide), rfl⟩

theorem witness_CaptureIsEmptiedOnlyBySwitchOrReset : ∃ s t u v w x : State,
    step s = .next t ∧ EmptiesNext s ∧ step u = .next v ∧ EmptiesNext u ∧ step w = .next x ∧ ¬ EmptiesNext w :=
  ⟨next { Pins.quiet with rst := true } base, _, next (arriving 7) { base with ph := .swrxB }, _, next (arriving 7) base, _,
    rfl, .inl ⟨_, rfl, rfl⟩, rfl, .inr ⟨_, ⟨rfl, rfl⟩, .inr rfl⟩, rfl, not_empties rfl rfl (by decide)⟩

/-- Each of the four registers changes somewhere. -/
theorem witness_DirectionChangesOnlyInSwitches : ∃ s t u v w x y z : State,
    (step s = .next t ∧ ¬ ResetNext s ∧ t.dir ≠ s.dir ∧ t.txEn ≠ s.txEn) ∧
    (step u = .next v ∧ ¬ ResetNext u ∧ v.rxEn ≠ u.rxEn ∧ v.auxSel ≠ u.auxSel) ∧
    (step w = .next x ∧ ¬ ResetNext w ∧ x.txEn ≠ w.txEn) ∧ (step y = .next z ∧ ¬ ResetNext y ∧ z.rxEn ≠ y.rxEn) :=
  ⟨next ready { base with ph := .swtxB }, _,
    next ready { base with ph := .swtxA, rxEn := true, cfg := { cfg with dirMode := .perDevice }, cur := 0x2005000000 }, _,
    next ready { base with ph := .swrxA, txEn := true }, _, next ready { base with ph := .swrxB }, _,
    ⟨rfl, not_reset rfl rfl, by decide, by decide⟩, ⟨rfl, not_reset rfl rfl, by decide, by decide⟩,
    ⟨rfl, not_reset rfl rfl, by decide⟩, ⟨rfl, not_reset rfl rfl, by decide⟩⟩

/-- Steps that change `LASTERR`, `BAUD`, `CUR`, `ASM`, `CNT`, the flags, `WAITC`, `TXLOG`, in which the statements say more than that
nothing changes. -/
theorem witness_LastErrorAndBaudAreKept : ∃ s t u v : State, step s = .next t ∧ t.lasterr ≠ s.lasterr ∧ step u = .next v ∧ v.baud ≠ u.baud :=
  ⟨next ready { checking 0x9001200001 [1, 3, 0x24, 5, 0xD2] with lasterr := 7 }, _, next (present 0x10000F4240) base, _,
    rfl, by decide, rfl, by decide⟩

/-- An accepted word, and the three ways in which `TXPOS` changes: an acceptance, a byte handed over, a reset. -/
theorem witness_AcceptedCommandIsLatched : ∃ s t u v w x : State, (step s = .next t ∧ t.cur ≠ s.cur ∧ t.txpos ≠ s.txpos) ∧
    (step u = .next v ∧ v.txpos = u.txpos + 1) ∧ (step w = .next x ∧ x.txpos ≠ w.txpos ∧ ResetNext w) :=
  ⟨next (present 0xA001200005) { base with txpos := 8 }, _,
    next ready { base with ph := .send, txbuf := [(0, 0xFF)], txlen := 8 }, _,
    next { Pins.quiet with rst := true } { base with txpos := 8 }, _,
    ⟨rfl, by decide, by decide⟩, ⟨rfl, rfl⟩, ⟨rfl, by decide, _, rfl, rfl⟩⟩

theorem witness_FrameWindowIsKept : ∃ s t u v w x y z : State, (step s = .next t ∧ ¬ ResetNext s ∧ t.asm ≠ s.asm ∧ t.cnt ≠ s.cnt) ∧
    (step u = .next v ∧ ¬ ResetNext u ∧ v.frameValid ≠ u.frameValid ∧ v.lenOk ≠ u.lenOk) ∧
    (step w = .next x ∧ ¬ ResetNext w ∧ x.cnt ≠ w.cnt ∧ x.frameValid ≠ w.frameValid ∧ x.lenOk ≠ w.lenOk ∧ x.expect ≠ w.expect) ∧
    (step y = .next z ∧ ¬ ResetNext y ∧ z.expect ≠ y.expect ∧ y.ph = .swrxB) :=
  ⟨next ready { base with ph := .read, cap := [(0, 0xFF)], wr := 1, expect := 7 }, _,
    next ready (checking 0x8000000007 [1, 3, 0, 5, 0xF6]), _,
    next (present 0x8000000007) { base with cnt := 7, frameValid := true, lenOk := true }, _,
    next ready { base with ph := .swrxB, cur := 0x9001200002 }, _,
    ⟨rfl, not_reset rfl rfl, by decide, by decide⟩, ⟨rfl, not_reset rfl rfl, by decide, by decide⟩,
    ⟨rfl, not_reset rfl rfl, by decide, by decide, by decide, by decide⟩, ⟨rfl, not_reset rfl rfl, by decide, rfl⟩⟩

/-- A reset, a reader start, a consumed byte, an empty poll. -/
theorem witness_WaitCounterCountsEmptyPolls : ∃ a b c d e f g h : State, (step a = .next b ∧ b.waitc ≠ a.waitc) ∧
    (step c = .next d ∧ d.waitc ≠ c.waitc) ∧ (step e = .next f ∧ f.waitc ≠ e.waitc) ∧ (step g = .next h ∧ h.waitc ≠ g.waitc) :=
  ⟨next { Pins.quiet with rst := true } { base with waitc := 3 }, _, next (present 0x8000000007) { base with waitc := 3 }, _,
    next ready { base with ph := .read, cap := [(0, 1)], wr := 1, waitc := 3 }, _, next ready { base with ph := .read, waitc := 2 }, _,
    ⟨rfl, by decide⟩, ⟨rfl, by decide⟩, ⟨rfl, by decide⟩, ⟨rfl, by decide⟩⟩

theorem witness_TracesGrowAndParametersStay : ∃ s t : State, step s = .next t ∧ t.txlog ≠ s.txlog :=
  ⟨next ready { base with ph := .send, txbuf := [(0, 0xFF)], txlen := 8 }, _, rfl, by decide⟩

/-- A command that ends at once, one that does not, and an idle cycle after a response. -/
theorem witness_ResponseStrobeMarksTheEnd : ∃ s t u v w x : State,
    (EngineNext s (present 0xC000000000) ∧ step s = .next t ∧ t.rspValid = true) ∧
    (EngineNext u (present 0xA001200005) ∧ step u = .next v ∧ v.rspValid = false) ∧
    (EngineNext w Pins.quiet ∧ step w = .next x ∧ w.rspValid = true ∧ x.rspValid = false) :=
  ⟨next (present 0xC000000000) base, _, next (present 0xA001200005) base, _, next Pins.quiet { base with rspValid := true }, _,
    ⟨⟨rfl, rfl⟩, rfl, rfl⟩, ⟨⟨rfl, rfl⟩, rfl, rfl⟩, ⟨⟨rfl, rfl⟩, rfl, rfl, rfl⟩⟩

/-- Each of the four failures. -/
theorem witness_FailuresAreExactlyThese :
    ([{ base with pins := present 0 }, { base with pins := present 0x20FF000000 }, { base with ph := .read, ovf := true }, { base with ph := .read, waitc := 3 },
      checking 0x8000000007 [1, 3, 0, 5, 0xF7]] : List State).map
      (fun s => fieldAfter (engineStep s) (fun t => (t.rspValid, t.rspOk, t.rspKind))) =
    [some (true, false, .badCmd), some (true, false, .badCmd), some (true, false, .overflow), some (true, false, .timeout), some (true, false, .checksum)] := by
  decide

/-- The first of these cycles presents the command, the others are ready. -/
def presenting (i : Instr) (n : Nat) : List Pins := present (wordOf i) :: List.replicate n ready

theorem witness_SwitchToTransmitTakesThreeCycles : ∃ s : State, s.cfg.Legal ∧ s.ph = .idle ∧
    (∃ id, (Instr.swTx 0xFE) = .swTx id ∧ id ≠ 0xFF) ∧ s.inputs = cycles [present (wordOf (.swTx 0xFE)), ready, ready] ++ [] ∧
    Presents (.swTx 0xFE) (present (wordOf (.swTx 0xFE))) [ready, ready] ∧
    Presents .swAllTx (present (wordOf .swAllTx)) [ready, ready] :=
  ⟨{ base with inputs := cycles (presenting (.swTx 0xFE) 2) }, cfg_legal, rfl, ⟨0xFE, rfl, by decide⟩, rfl,
    ⟨by decide, rfl, rfl⟩, ⟨by decide, rfl, rfl⟩⟩

theorem witness_SwitchToReceiveTakesThreeCycles : ∃ s : State, s.cfg.Legal ∧ s.ph = .idle ∧
    s.inputs = cycles [present (wordOf (.swRx 0)), ready, arriving 7] ++ [] ∧ (0 : Byte) ≠ 0xFF ∧
    Presents (.swRx 0) (present (wordOf (.swRx 0))) [ready, arriving 7] ∧
    Presents (.init 9600) (present (wordOf (.init 9600))) [ready, arriving 7] :=
  ⟨{ base with inputs := cycles [present (wordOf (.swRx 0)), ready, arriving 7] }, cfg_legal, rfl, rfl, by decide,
    ⟨by decide, rfl, rfl⟩, ⟨by decide, rfl, rfl⟩⟩

/-- The cycles of `SEND` of a frame of `n` bytes, the transport stalled in the first one. -/
def stalledOnce (n : Nat) : List Pins := Pins.quiet :: List.replicate n ready

theorem witness_FrameIsSentThenReceive : ∃ (s : State) (p0 : Pins) (mid : List Pins), s.cfg.Legal ∧ s.ph = .idle ∧
    frameOf s.cfg (.setReg2 1 0x1E 0x1234) ≠ [] ∧ hasAll (.setReg2 1 0x1E 0x1234) = false ∧ isGetReg (.setReg2 1 0x1E 0x1234) = false ∧
    InRange s.cfg (.setReg2 1 0x1E 0x1234) ∧ s.inputs = cycles (p0 :: ready :: ready :: (mid ++ [ready, arriving 7])) ++ [] ∧
    Presents (.setReg2 1 0x1E 0x1234) p0 (ready :: ready :: (mid ++ [ready, arriving 7])) ∧
    readyCount mid = (frameOf s.cfg (.setReg2 1 0x1E 0x1234)).length ∧ mid.getLast?.map (·.txReady) = some true :=
  ⟨{ base with inputs := cycles (present 0xB0011E1234 :: ready :: ready :: (stalledOnce 9 ++ [ready, arriving 7])) },
    present 0xB0011E1234, stalledOnce 9, cfg_legal, rfl, by decide, rfl, rfl, by simp only [InRange]; decide, rfl,
    ⟨by decide, rfl, by decide⟩, by decide, by decide⟩

theorem witness_FrameIsSentStayingInTransmit : ∃ (s : State) (p0 : Pins) (mid : List Pins), s.cfg.Legal ∧ s.ph = .idle ∧
    hasAll (.buildWrite true 0xFE 0x19 1) = true ∧ InRange s.cfg (.buildWrite true 0xFE 0x19 1) ∧
    s.inputs = cycles (p0 :: ready :: ready :: mid) ++ [] ∧ Presents (.buildWrite true 0xFE 0x19 1) p0 (ready :: ready :: mid) ∧
    readyCount mid = (frameOf s.cfg (.buildWrite true 0xFE 0x19 1)).length ∧ mid.getLast?.map (·.txReady) = some true :=
  ⟨{ base with inputs := cycles (present 0x68FE190001 :: ready :: ready :: stalledOnce 8) }, present 0x68FE190001, stalledOnce 8,
    cfg_legal, rfl, rfl, by simp only [InRange]; decide, rfl, ⟨by decide, rfl, by decide⟩, by decide, by decide⟩

theorem witness_GetRegSendsThenReads : ∃ (s : State) (p0 : Pins) (mid : List Pins), s.cfg.Legal ∧ s.ph = .idle ∧
    InRange s.cfg (.getReg 1 0x20 1) ∧ s.inputs = cycles (p0 :: ready :: ready :: (mid ++ [ready, arriving 7])) ++ [] ∧
    Presents (.getReg 1 0x20 1) p0 (ready :: ready :: (mid ++ [ready, arriving 7])) ∧ readyCount mid = 8 ∧
    mid.getLast?.map (·.txReady) = some true :=
  ⟨{ base with inputs := cycles (present 0x9001200001 :: ready :: ready :: (stalledOnce 8 ++ [ready, arriving 7])) },
    present 0x9001200001, stalledOnce 8, cfg_legal, rfl, by simp only [InRange]; decide, rfl, ⟨by decide, rfl, by decide⟩,
    by decide, by decide⟩

/-- Row F3: `00 37`, two markers, and the frame of 7 bytes; and a wrong sum in the place of the right one. -/
theorem witness_ReadPacketResynchronizes : ∃ (s : State) (p0 : Pins) (ps : List Pins), s.ph = .idle ∧
    InRange s.cfg (.readPacket 7) ∧ (∀ b ∈ ([0x00, 0x37] : List Byte), b ≠ 0xFF) ∧
    ([1, 3, 0, 5, 0xF6] : List Byte).length + 2 = (7 : Byte).toNat ∧ ([1, 3, 0, 5, 0xF6] : List Byte).head? ≠ some 0xFF ∧
    s.rd + (2 + 2 + 5) ≤ s.wr ∧ s.wr ≤ s.cfg.capDepth ∧
    (∀ j < 2 + 2 + 5, Memory.read s.cap (s.rd + j) =
      (([0x00, 0x37] : List Byte) ++ List.replicate 2 0xFF ++ [1, 3, 0, 5, 0xF6])[j]?) ∧
    s.inputs = cycles (p0 :: ps) ++ [] ∧ Presents (.readPacket 7) p0 ps ∧ ps.length = 2 + 2 + 5 + 1 ∧
    (∀ p ∈ p0 :: ps, p.rxValid = false) ∧ total [1, 3, 0, 5, 0xF6] % 256 = 255 ∧ total [1, 3, 0, 5, 0xF7] % 256 ≠ 255 :=
  ⟨{ base with cap := Memory.writeList [] 3 [0x00, 0x37, 0xFF, 0xFF, 1, 3, 0, 5, 0xF6], rd := 3, wr := 12,
               inputs := cycles (presenting (.readPacket 7) 10) },
    present 0x8000000007, List.replicate 10 ready, rfl, by simp only [InRange]; decide, by decide, by decide, by decide,
    by decide, by decide, by decide, rfl, ⟨by decide, rfl, by decide⟩, by decide, by decide, by decide, by decide⟩

/-- The answers of programs P1 and P2, and one with a wrong sum. -/
theorem witness_GetRegExchange : ∃ (s : State) (p0 : Pins) (send arrive : List Pins), s.cfg.Legal ∧ s.ph = .idle ∧
    InRange s.cfg (.getReg 1 0x20 1) ∧ (1 : Byte) ≠ 0xFF ∧
    s.inputs = cycles (p0 :: (send ++ ready :: (arrive ++ [ready, ready]))) ++ [] ∧
    Presents (.getReg 1 0x20 1) p0 (send ++ ready :: (arrive ++ [ready, ready])) ∧ send.length = 11 ∧
    (∀ p ∈ send, p.txReady = true) ∧ (∀ p ∈ arrive, p.rxValid = true) ∧
    arrive.map (·.rxData) = [0xFF, 0xFF, 1, 3, 0, 5] ++ (if (1 : Byte) = 1 then [0xF6] else [0, 0xF6]) ∧
    total ([1, 3, 0, 5] ++ (if (1 : Byte) = 1 then [0xF6] else [0, 0xF6])) % 256 = 255 ∧
    total ([1, 3, 0, 5] ++ (if (1 : Byte) = 1 then [0xF7] else [0, 0xF7])) % 256 ≠ 255 ∧
    InRange s.cfg (.getReg 1 0x1E 2) ∧
    total ([1, 4, 0, 0x34] ++ (if (2 : Byte) = 1 then [0xB4] else [0x12, 0xB4])) % 256 = 255 :=
  ⟨{ base with inputs := cycles (present 0x9001200001 ::
      (List.replicate 11 ready ++ ready :: ([0xFF, 0xFF, 1, 3, 0, 5, 0xF6].map arriving ++ [ready, ready]))) },
    present 0x9001200001, List.replicate 11 ready, [0xFF, 0xFF, 1, 3, 0, 5, 0xF6].map arriving, cfg_legal, rfl,
    by simp only [InRange]; decide, by decide, rfl, ⟨by decide, rfl, by decide⟩, by decide, by decide, by decide, by decide,
    by decide, by decide, by simp only [InRange]; decide, by decide⟩

theorem witness_ByteWriteRoundTrip : ∃ (s : State) (p0 r0 : Pins) (send read : List Pins), s.cfg.Legal ∧ s.ph = .idle ∧
    (0xFE : Byte) ≠ 0xFF ∧
    s.inputs = cycles (p0 :: send) ++
      .line [0xFF, 0xFF, 0xFE, 4, s.cfg.instWrite, 0x19, 1, ~~~(0xFE + 4 + s.cfg.instWrite + 0x19 + 1)] :: cycles (r0 :: read) ++ [] ∧
    Presents (.buildWrite false 0xFE 0x19 1) p0 send ∧ Presents (.readPacket 8) r0 read ∧ send.length = 12 ∧ read.length = 9 ∧
    (∀ p ∈ send, p.txReady = true) ∧ (∀ p ∈ p0 :: send ++ r0 :: read, p.rxValid = false) :=
  ⟨{ base with inputs := cycles (present 0x60FE190001 :: List.replicate 12 ready) ++
                 Event.line [0xFF, 0xFF, 0xFE, 4, 3, 0x19, 1, ~~~(0xFE + 4 + 3 + 0x19 + 1)] :: cycles (presenting (.readPacket 8) 9) ++ [] },
    present 0x60FE190001, present 0x8000000008, List.replicate 12 ready, List.replicate 9 ready, cfg_legal, rfl, by decide, rfl,
    ⟨by decide, rfl, by decide⟩, ⟨by decide, rfl, by decide⟩, by decide, by decide, by decide, by decide⟩

theorem witness_WordWriteRoundTrip : ∃ (s : State) (p0 r0 : Pins) (send read : List Pins), s.cfg.Legal ∧ 9 ≤ s.cfg.capDepth ∧
    s.ph = .idle ∧ (1 : Byte) ≠ 0xFF ∧
    s.inputs = cycles (p0 :: send) ++
      .line (request9 1 s.cfg.instWrite 0x1E (low 0x1234) (high 0x1234)) :: cycles (r0 :: read) ++ [] ∧
    Presents (.buildWrite2 false 1 0x1E 0x1234) p0 send ∧ Presents (.readPacket 9) r0 read ∧ send.length = 13 ∧ read.length = 10 ∧
    (∀ p ∈ send, p.txReady = true) ∧ (∀ p ∈ p0 :: send ++ r0 :: read, p.rxValid = false) :=
  ⟨{ base with inputs := cycles (present 0x70011E1234 :: List.replicate 13 ready) ++
                 Event.line (request9 1 3 0x1E (low 0x1234) (high 0x1234)) :: cycles (presenting (.readPacket 9) 10) ++ [] },
    present 0x70011E1234, present 0x8000000009, List.replicate 13 ready, List.replicate 10 ready, cfg_legal, by decide, rfl, by decide,
    rfl, ⟨by decide, rfl, by decide⟩, ⟨by decide, rfl, by decide⟩, by decide, by decide, by decide, by decide⟩

/-- A silent line with the receiver on, and bytes that arrive with the receiver off. -/
theorem witness_SilentReadTimesOutExactly : ∃ s u : State,
    (s.ph = .read ∧ s.wr ≤ s.rd ∧ s.ovf = false ∧ s.waitc = 0 ∧ s.inputs = cycles (List.replicate 4 ready) ++ [] ∧
      (List.replicate 4 ready).length = s.cfg.waitBudget + 1 ∧ NoReset (List.replicate 4 ready) ∧ s.rxEn = true ∧
      ∀ p ∈ List.replicate 4 ready, p.rxValid = false) ∧
    (u.ph = .read ∧ u.wr ≤ u.rd ∧ u.ovf = false ∧ u.waitc = 0 ∧ u.inputs = cycles (List.replicate 4 (arriving 7)) ++ [] ∧
      (List.replicate 4 (arriving 7)).length = u.cfg.waitBudget + 1 ∧ NoReset (List.replicate 4 (arriving 7)) ∧ u.rxEn = false) :=
  ⟨{ base with ph := .read, rxEn := true, inputs := cycles (List.replicate 4 ready) },
    { base with ph := .read, inputs := cycles (List.replicate 4 (arriving 7)) },
    ⟨rfl, by decide, rfl, rfl, rfl, by decide, by decide, rfl, by decide⟩, ⟨rfl, by decide, rfl, rfl, rfl, by decide, by decide, rfl⟩⟩

theorem witness_OverflowPersists : ∃ s : State, s.ph = .idle ∧ s.wr ≤ s.rd ∧ s.ovf = true ∧ InRange s.cfg (.readPacket 6) ∧
    s.inputs = cycles [present (wordOf (.readPacket 6)), ready] ++ [] ∧
    Presents (.readPacket 6) (present (wordOf (.readPacket 6))) [ready] :=
  ⟨{ base with ovf := true, wr := 32, rd := 32, inputs := cycles (presenting (.readPacket 6) 1) }, rfl, by decide, rfl,
    by simp only [InRange]; decide, rfl, ⟨by decide, rfl, rfl⟩⟩

/-- A block that has just accepted `READ_PACKET 6` in Receive. -/
def reading : State :=
  { base with cfg := small, rxEn := true, ph := .read, expect := 6, cur := 0x8000000006, inputs := cycles (List.replicate 18 ready) }

theorem reading_inv : Inv reading := by
  have h0 : ∀ m, WrittenBelow m 0 := fun _ _ h => absurd h (Nat.not_lt_zero _)
  constructor
  case legal => exact small_legal
  case captured => exact h0 _
  case assembled => exact ⟨h0 _, Nat.zero_le _⟩
  case framed => intro h; simp [FramePending, reading] at h
  all_goals decide

theorem witness_EveryReadEndsWithinItsBound : Inv reading ∧ reading.ph = .read ∧
    reading.inputs = cycles (List.replicate 18 ready) ++ [] ∧ NoReset (List.replicate 18 ready) ∧
    (List.replicate 18 ready).length = (reading.cfg.capDepth - reading.rd) * (reading.cfg.waitBudget + 1) + reading.cfg.waitBudget + 1 :=
  ⟨reading_inv, rfl, rfl, by decide, by decide⟩

theorem witness_EveryCommandEnds : ∃ s : State, Inv s ∧ s.ph ≠ .idle ∧
    s.inputs = cycles (List.replicate 11 ready ++ List.replicate 21 ready) ++ [] ∧
    NoReset (List.replicate 11 ready ++ List.replicate 21 ready) ∧ 11 ≤ readyCount (List.replicate 11 ready) ∧
    (List.replicate 21 ready).length = (s.cfg.capDepth + 1) * (s.cfg.waitBudget + 1) + 3 := by
  refine ⟨{ reading with inputs := cycles (List.replicate 11 ready ++ List.replicate 21 ready) }, ?_, by decide, rfl, by decide,
    by decide, by decide⟩
  obtain ⟨⟩ := reading_inv
  constructor <;> assumption

theorem witness_SetRegActsAsBuildWrite : base.ph = .idle := rfl

theorem witness_SwAllTxActsAsSwTxWhenShared : base.ph = .idle ∧ base.cfg.dirMode = .shared ∧ (0xFE : Byte) ≠ 0xFF := by decide

theorem witness_ResetHasTheInvariant : cfg.Legal := cfg_legal

theorem witness_StepKeepsTheInvariant : Inv reading ∧ ∃ t, step reading = .next t := ⟨reading_inv, _, rfl⟩

theorem witness_NoStepStops : Inv reading := reading_inv

theorem witness_ReachableStatesAreSafe : cfg.Legal ∧ ∃ t, runSteps 1 (State.resetWith cfg [.cycle (present 0x10000F4240)]) = .next t :=
  ⟨cfg_legal, _, rfl⟩

/-- Three cycles after reset a `SET_REG` is in `SEND`. -/
theorem witness_EmittedFramesSumTo255 : cfg.Legal ∧ ∃ t,
    runSteps 3 (State.resetWith cfg (cycles (presenting (.setReg 1 0x20 5) 2))) = .next t ∧ t.ph = .send :=
  ⟨cfg_legal, _, rfl, rfl⟩

/-- A block that has assembled one byte. -/
def assembling : State := { reading with asm := [(0, 0xFF)], cnt := 1 }

/-- A block that sends the last byte of `FF FF 01 04 03 20 05 D2`. -/
def sending : State :=
  { base with cfg := small, dir := .transmit, txEn := true, ph := .send, cur := 0xA001200005, txlen := 8, txpos := 7,
              txbuf := Memory.writeList [] 0 [0xFF, 0xFF, 1, 4, 3, 0x20, 5, 0xD2] }

theorem assembling_inv : Inv assembling := by
  constructor
  case legal => exact small_legal
  all_goals decide

theorem sending_inv : Inv sending := by
  constructor
  case legal => exact small_legal
  all_goals decide

/-- An index below `CNT` and one at it, in `READ`; and `SEND`. -/
theorem witness_OutputsShowOnlyWrittenBytes :
    (Inv assembling ∧ (0 : Byte).toNat < assembling.cnt ∧ assembling.cnt ≤ (1 : Byte).toNat ∧ assembling.ph ≠ .send) ∧
    (Inv sending ∧ sending.ph = .send ∧ (outputs sending 0).txData = some 0xD2) :=
  ⟨⟨assembling_inv, by decide, by decide, by decide⟩, sending_inv, rfl, by decide⟩

/-- A byte that takes the last place of the buffer, and one that finds it full. -/
theorem witness_IdleCycleOnlyClearsTheStrobe : ∃ s t : State, s.ph = .idle ∧ t.ph = .idle ∧ s.pins.cmdValid = false ∧
    EngineNext s (arriving 7) ∧ EngineNext t (arriving 7) ∧ (arriving 7).cmdValid = false ∧
    s.rxEn = true ∧ s.wr + 1 = s.cfg.capDepth ∧ t.rxEn = true ∧ t.wr = t.cfg.capDepth ∧
    fieldAfter (step s) (fun u => (u.wr, u.ovf)) = some (32, false) ∧ fieldAfter (step t) (fun u => (u.wr, u.ovf)) = some (32, true) :=
  ⟨next (arriving 7) { base with rxEn := true, wr := 31, rspValid := true }, next (arriving 7) { base with rxEn := true, wr := 32 },
    rfl, rfl, rfl, ⟨rfl, rfl⟩, ⟨rfl, rfl⟩, rfl, rfl, by decide, rfl, by decide, by decide, by decide⟩

theorem witness_SingleChangesAreDetected : (5 : Byte) ≠ 6 ∧ frameSumOk ([1, 3, 0] ++ 5 :: [0xF6]) = true ∧
    ([1, 3, 0, 5, 0xF6] : List Byte).Perm [3, 1, 0, 5, 0xF6] := ⟨by decide, by decide, List.Perm.swap 3 1 _⟩

end Sys2Proof.Tests
end

section
/-! PROOFS. What a command word decodes to, and what its acceptance does (spec/10_state.md R29, spec/30_encoding.md R62, R65). -/

namespace Sys2Proof.Machine

/-- What holds of a decoded instruction if the bits that must be 0 are. -/
theorem decoded_of_mustBeZero {P : Instr → Prop} {zero : Bool} {why : DecodeError} {x : Except DecodeError Instr}
    (hx : zero = true → ∀ i, x = .ok i → P i) : ∀ i, mustBeZero zero why x = .ok i → P i :=
  fun i h => hx (mustBeZero_eq_ok.1 h).1 i (mustBeZero_eq_ok.1 h).2

/-- What holds of a decoded instruction, by the branch that decodes it. -/
theorem decoded_of_ite {P : Instr → Prop} {c : Prop} [Decidable c] {x y : Except DecodeError Instr}
    (hx : c → ∀ i, x = .ok i → P i) (hy : ∀ i, y = .ok i → P i) : ∀ i, (if c then x else y) = .ok i → P i := by
  split
  · exact hx ‹_›
  · exact hy

theorem decoded_of_error {P : Instr → Prop} {e : DecodeError} : ∀ i, Except.error e = .ok i → P i := fun _ h => nomatch h

/-- An 8-bit operand with 0 above it is the whole data field (R63). -/
theorem zext16_fieldDataLo {w : Word40} (h : fieldDataHi w = 0) : zext16 (fieldDataLo w) = fieldData w := by
  rw [fieldDataHi_eq] at h
  rw [fieldDataLo_eq, zext16_lowByte h]

/-- No bit of a command word is dropped: it is the encoding of what it decodes to. -/
theorem encode_of_decodeCommand (p : Params) {w : Word40} {i : Instr} (h : decodeCommand w = .ok i) :
    encode p i = .command w := by
  revert i
  suffices hw : ∀ i, decodeCommand w = .ok i → encode p i = .command w from fun {i} h => hw i h
  dsimp only [decodeCommand]
  refine decoded_of_mustBeZero fun hr => ?_
  rw [beq_iff_eq] at hr
  have hw := commandWord_fields hr
  repeat' first
    | refine decoded_of_mustBeZero fun _ => ?_
    | refine decoded_of_ite (fun _ => ?_) ?_
    | exact decoded_of_error
  all_goals
    rintro _ ⟨⟩
    simp_all [encode, zext16_fieldDataLo, initWord_fieldBaud]

/-- What the acceptance of the command word `w` makes of a state, by the kind of command: `w` stands in `CUR` and its operands are in
range (R29, R65). -/
inductive Acceptance (s : State) (w : Word40) : State → Prop
  | switchTx (hop : switchOnly w = true) (hid : idLegal (fieldId w) = true) : Acceptance s w (latch w .swtxA s)
  | switchRx (hop : fieldOp w = opSwRx) (hid : idLegal (fieldId w) = true) : Acceptance s w (latch w .swrxA s)
  | send {id inst : Byte} {params : List Byte} (hop : switchOnly w = false) (hid : idLegal (fieldId w) = true)
      (hwidth : fieldOp w = opGetReg → widthLegal (fieldDataLo w) = true) (hlen : params.length = 2 ∨ params.length = 3) :
      Acceptance s w (acceptSend w id inst params s)
  | read (hop : fieldOp w = opReadPacket) (hid : idLegal (fieldId w) = true) (hn : countLegal s.cfg (fieldDataLo w) = true) :
      Acceptance s w (latch w .read (readerInit (fieldDataLo w).toNat s))
  | init {baud : Word32} (hw : w = initWord baud) :
      Acceptance s w (latch w .swrxA { s with baud := baud, cnt := 0, frameValid := false, lenOk := false })
  | lastError (hop : fieldOp w = opGetLastError) : Acceptance s w (succeed (zext16 s.lasterr) (latch w .idle s))

/-- The acceptance action of a command in range is the acceptance of its word. -/
theorem acceptance_of_decodeCommand {s : State} {w : Word40} {i : Instr} (hd : decodeCommand w = .ok i)
    (hwf : wellFormed s.cfg i = true) : Acceptance s w (acceptAction i s) := by
  have hw := encode_of_decodeCommand s.cfg hd
  cases i <;> simp only [encode, Image.command.injEq, reduceCtorEq] at hw <;> subst hw <;>
    simp only [wellFormed, Bool.and_eq_true] at hwf
  case init => exact .init rfl
  case swTx => exact .switchTx (by simp [switchOnly]) (by simpa using hwf)
  case swRx => exact .switchRx (by simp) (by simpa using hwf)
  case swAllTx => exact .switchTx (by simp [switchOnly]) (by simp [idLegal])
  case readPacket n =>
    have h := Acceptance.read (s := s) (w := commandWord opReadPacket false 0 0 (zext16 n)) (by simp) (by simp [idLegal])
      (by simpa using hwf)
    rwa [fieldDataLo_commandWord, lowByte_zext16] at h
  case getReg =>
    obtain ⟨hid, hwidth⟩ := hwf
    exact .send (by simp [switchOnly]; decide) (by simpa using hid) (fun _ => by simpa using hwidth) (.inl rfl)
  case getLastError => exact .lastError (by simp)
  all_goals
    refine .send (by simp [switchOnly]; decide) (by simpa using hwf) (fun h => ?_) (by simp)
    exact absurd ((fieldOp_commandWord ..).symm.trans h) (by decide)

end Sys2Proof.Machine
end

section
/-! PROOFS. What an engine step can do, said once (spec/10_state.md R30): if it answers a next state, then it made one of these moves.
The statements about every step are read off the moves, group of registers by group of registers. -/

namespace Sys2Proof.Machine

/-- An engine step from `s`, by the phase and the branch of its rule. -/
inductive EngineMove (s : State) : State → Prop
  | quiet (hp : s.ph = .idle) (hv : s.pins.cmdValid = false) : EngineMove s (clearStrobe s)
  | refuse (hp : s.ph = .idle) (hv : s.pins.cmdValid = true) : EngineMove s (raiseFail .badCmd s)
  | accept {t : State} (hp : s.ph = .idle) (hv : s.pins.cmdValid = true)
      (ha : Acceptance (clearStrobe s) s.pins.cmdWord t) : EngineMove s t
  | leaveReceive {v : Byte} (hp : s.ph = .swtxA) (hv : selFor .transmit s = .ok v) :
      EngineMove s { clearStrobe s with rxEn := false, auxSel := v, ph := .swtxB }
  | enterTransmit (hp : s.ph = .swtxB) (ho : switchOnly s.cur = true) :
      EngineMove s (succeed 0 (emptyCapture { s with txEn := true, dir := .transmit }))
  | startSend (hp : s.ph = .swtxB) (ho : switchOnly s.cur = false) :
      EngineMove s { emptyCapture { clearStrobe s with txEn := true, dir := .transmit } with ph := .send }
  | leaveTransmit {v : Byte} (hp : s.ph = .swrxA) (hv : selFor .receive s = .ok v) :
      EngineMove s { clearStrobe s with txEn := false, auxSel := v, ph := .swrxB }
  | enterReceive (hp : s.ph = .swrxB) (ho : fieldOp s.cur ≠ opGetReg) :
      EngineMove s (succeed 0 (emptyCapture { s with rxEn := true, dir := .receive }))
  | startRead (hp : s.ph = .swrxB) (ho : fieldOp s.cur = opGetReg) :
      EngineMove s { readerInit (responseSize (fieldDataLo s.cur))
        (emptyCapture { clearStrobe s with rxEn := true, dir := .receive }) with ph := .read }
  | stall (hp : s.ph = .send) (hr : s.pins.txReady = false) : EngineMove s (clearStrobe s)
  | sendMore {b : Byte} (hp : s.ph = .send) (hr : s.pins.txReady = true) (hb : Memory.read s.txbuf s.txpos = some b)
      (hl : s.txpos + 1 ≠ s.txlen) : EngineMove s { emit b (clearStrobe s) with txpos := s.txpos + 1 }
  | sendLastAll {b : Byte} (hp : s.ph = .send) (hr : s.pins.txReady = true) (hb : Memory.read s.txbuf s.txpos = some b)
      (hl : s.txpos + 1 = s.txlen) : EngineMove s (succeed 0 { emit b s with txpos := s.txpos + 1 })
  | sendLast {b : Byte} (hp : s.ph = .send) (hr : s.pins.txReady = true) (hb : Memory.read s.txbuf s.txpos = some b)
      (hl : s.txpos + 1 = s.txlen) : EngineMove s { emit b (clearStrobe s) with txpos := s.txpos + 1, ph := .swrxA }
  | skip (hp : s.ph = .read) (hr : s.rd < s.wr) : EngineMove s { clearStrobe s with rd := s.rd + 1, waitc := 0 }
  | storeMore {b : Byte} (hp : s.ph = .read) (hr : s.rd < s.wr) (hf : notFrameStart s.cnt b = false)
      (hd : duplicateSync s.cnt b = false) (hn : s.cnt < s.cfg.capDepth) (he : s.cnt + 1 ≠ s.expect) :
      EngineMove s { clearStrobe s with
        rd := s.rd + 1, waitc := 0, asm := Memory.write s.asm s.cnt b, cnt := s.cnt + 1 }
  | storeLast {b : Byte} (hp : s.ph = .read) (hr : s.rd < s.wr) (hf : notFrameStart s.cnt b = false)
      (hd : duplicateSync s.cnt b = false) (hn : s.cnt < s.cfg.capDepth) (he : s.cnt + 1 = s.expect) :
      EngineMove s { clearStrobe s with
        rd := s.rd + 1, waitc := 0, asm := Memory.write s.asm s.cnt b, cnt := s.cnt + 1, ph := .check }
  | failRead {k : Kind} (hp : s.ph = .read) (hk : k = .overflow ∨ k = .timeout) : EngineMove s (raiseFail k s)
  | poll (hp : s.ph = .read) (hw : s.waitc ≠ s.cfg.waitBudget) : EngineMove s { clearStrobe s with waitc := s.waitc + 1 }
  | failCheck (hp : s.ph = .check) : EngineMove s (raiseFail .checksum s)
  | acceptFrame {l : List Byte} {len : Byte} (hp : s.ph = .check) (hl : readBytes .asm s 2 (s.expect - 2) = .ok l)
      (hs : frameSumOk l = true) (ho : fieldOp s.cur ≠ opGetReg) :
      EngineMove s (succeed 0 { s with frameValid := true, lenOk := lengthAgrees len s.expect })
  | finishGetReg {l : List Byte} {len status : Byte} {v : Word16} (hp : s.ph = .check)
      (hl : readBytes .asm s 2 (s.expect - 2) = .ok l) (hs : frameSumOk l = true) (ho : fieldOp s.cur = opGetReg)
      (hst : Memory.read s.asm 4 = some status) :
      EngineMove s (succeed v { s with frameValid := true, lenOk := lengthAgrees len s.expect, lasterr := status })

@[simp] theorem readByte_clearStrobe (buf : Buffer) (s : State) (i : Nat) : readByte buf (clearStrobe s) i = readByte buf s i := by
  cases buf <;> rfl

@[simp] theorem readBytes_clearStrobe (buf : Buffer) (s : State) (i n : Nat) :
    readBytes buf (clearStrobe s) i n = readBytes buf s i n := by
  induction n generalizing i with
  | zero => rfl
  | succ n ih => simp [readBytes, ih]

/-! The engine step of a busy phase is that phase's step on the state with the strobe cleared. -/

theorem engineStep_swtxA {s : State} (h : s.ph = .swtxA) : engineStep s = swtxA (clearStrobe s) := by
  rw [engineStep_busy (by simp [h]), engineCycle, h]
theorem engineStep_swtxB {s : State} (h : s.ph = .swtxB) : engineStep s = swtxB (clearStrobe s) := by
  rw [engineStep_busy (by simp [h]), engineCycle, h]
theorem engineStep_send {s : State} (h : s.ph = .send) : engineStep s = sendStep (clearStrobe s) := by
  rw [engineStep_busy (by simp [h]), engineCycle, h]
theorem engineStep_swrxA {s : State} (h : s.ph = .swrxA) : engineStep s = swrxA (clearStrobe s) := by
  rw [engineStep_busy (by simp [h]), engineCycle, h]
theorem engineStep_swrxB {s : State} (h : s.ph = .swrxB) : engineStep s = swrxB (clearStrobe s) := by
  rw [engineStep_busy (by simp [h]), engineCycle, h]
theorem engineStep_read {s : State} (h : s.ph = .read) : engineStep s = readStep (clearStrobe s) := by
  rw [engineStep_busy (by simp [h]), engineCycle, h]
theorem engineStep_check {s : State} (h : s.ph = .check) : engineStep s = checkStep (clearStrobe s) := by
  rw [engineStep_busy (by simp [h]), engineCycle, h]

/-- The moves of `SEND` (spec/44_serializer.md R140). -/
theorem engineMove_of_sendStep {s t : State} (hp : s.ph = .send) (h : sendStep (clearStrobe s) = .next t) : EngineMove s t := by
  rcases sendStep_eq_next.1 h with ⟨hr, rfl⟩ | ⟨hr, b, hb, ⟨hl, rfl⟩ | ⟨hl, _, rfl⟩ | ⟨hl, _, rfl⟩⟩
  · exact .stall hp hr
  · exact .sendMore hp hr (readByte_eq_ok.1 hb).2 hl
  · exact .sendLastAll hp hr (readByte_eq_ok.1 hb).2 hl
  · exact .sendLast hp hr (readByte_eq_ok.1 hb).2 hl

/-- A byte that the reader takes is skipped, or stored as the last one of the frame, or stored before that (spec/43_framer.md R117). -/
theorem classify_cases {b : Byte} {s t : State} (h : classify b s = .next t) : s = t ∨
    (notFrameStart s.cnt b = false ∧ duplicateSync s.cnt b = false ∧ s.cnt < s.cfg.capDepth ∧
      ((s.cnt + 1 = s.expect ∧ { s with asm := Memory.write s.asm s.cnt b, cnt := s.cnt + 1, ph := .check } = t) ∨
       (s.cnt + 1 ≠ s.expect ∧ { s with asm := Memory.write s.asm s.cnt b, cnt := s.cnt + 1 } = t))) := by
  rcases classify_eq_next.1 h with ⟨_, rfl⟩ | ⟨hf, hd, hn, ht⟩
  · exact .inl rfl
  · refine .inr ⟨hf, hd, hn, ?_⟩
    by_cases he : s.cnt + 1 = s.expect
    · exact .inl ⟨he, by rwa [if_pos he] at ht⟩
    · exact .inr ⟨he, by rwa [if_neg he] at ht⟩

/-- The moves of `READ` (spec/43_framer.md R116, R117). -/
theorem engineMove_of_readStep {s t : State} (hp : s.ph = .read) (h : readStep (clearStrobe s) = .next t) : EngineMove s t := by
  rcases readStep_eq_next.1 h with ⟨hr, b, _, hc⟩ | ⟨_, _, rfl⟩ | ⟨_, _, _, rfl⟩ | ⟨_, _, hw, rfl⟩
  · rcases classify_cases hc with rfl | ⟨hf, hd, hn, ⟨he, rfl⟩ | ⟨he, rfl⟩⟩
    · exact .skip hp hr
    · exact .storeLast hp hr hf hd hn he
    · exact .storeMore hp hr hf hd hn he
  · exact .failRead hp (.inl rfl)
  · exact .failRead hp (.inr rfl)
  · exact .poll hp hw

/-- The moves of `CHECK` (spec/43_framer.md R124). -/
theorem engineMove_of_checkStep {s t : State} (hp : s.ph = .check) (h : checkStep (clearStrobe s) = .next t) : EngineMove s t := by
  obtain ⟨l, hl, h⟩ := checkStep_eq_next.1 h
  rw [readBytes_clearStrobe] at hl
  rcases h with ⟨_, rfl⟩ | ⟨hs, len, _, ⟨ho, rfl⟩ | ⟨ho, status, v, hst, _, rfl⟩⟩
  · exact .failCheck hp
  · exact .acceptFrame hp hl hs ho
  · exact .finishGetReg hp hl hs ho (readByte_eq_ok.1 hst).2

/-- An engine step that answers a next state made one of the moves. -/
theorem engineMove_of_engineStep {s t : State} (h : engineStep s = .next t) : EngineMove s t := by
  cases hp : s.ph with
  | idle =>
    rcases engineStep_idle hp with ⟨hv, he⟩ | ⟨hv, he⟩ | ⟨i, hv, hd, hw, he⟩ <;>
      obtain rfl := Host.Outcome.next.inj (he.symm.trans h)
    · exact .quiet hp hv
    · exact .refuse hp hv
    · exact .accept hp hv (acceptance_of_decodeCommand hd hw)
  | swtxA =>
    obtain ⟨v, hv, rfl⟩ := swtxA_eq_next.1 (engineStep_swtxA hp ▸ h)
    exact .leaveReceive hp hv
  | swtxB =>
    rcases swtxB_eq_next.1 (engineStep_swtxB hp ▸ h) with ⟨ho, rfl⟩ | ⟨ho, rfl⟩
    · exact .enterTransmit hp ho
    · exact .startSend hp ho
  | send => exact engineMove_of_sendStep hp (engineStep_send hp ▸ h)
  | swrxA =>
    obtain ⟨v, hv, rfl⟩ := swrxA_eq_next.1 (engineStep_swrxA hp ▸ h)
    exact .leaveTransmit hp hv
  | swrxB =>
    rcases swrxB_eq_next.1 (engineStep_swrxB hp ▸ h) with ⟨ho, rfl⟩ | ⟨ho, rfl⟩
    · exact .startRead hp ho
    · exact .enterReceive hp ho
  | read => exact engineMove_of_readStep hp (engineStep_read hp ▸ h)
  | check => exact engineMove_of_checkStep hp (engineStep_check hp ▸ h)

end Sys2Proof.Machine
end

section
/-! PROOFS. What the moves of the engine do to each group of registers. -/

namespace Sys2Proof.Machine

variable {s t : State}

/-- A move as the direction registers see it (spec/41_direction.md R94 to R98). -/
inductive DirectionMove (s t : State) : Prop
  | kept (hdir : t.dir = s.dir) (htx : t.txEn = s.txEn) (hrx : t.rxEn = s.rxEn) (hsel : t.auxSel = s.auxSel)
      (hA : t.ph ≠ .swtxB) (hB : t.ph ≠ .swrxB) (hS : t.ph = .send → s.ph = .send)
  | leaveReceive (hp : s.ph = .swtxA) (hdir : t.dir = s.dir) (htx : t.txEn = s.txEn) (hrx : t.rxEn = false)
      (hsel : selFor .transmit s = .ok t.auxSel) (hq : t.ph = .swtxB)
  | enterTransmit (hp : s.ph = .swtxB) (hdir : t.dir = .transmit) (htx : t.txEn = true) (hrx : t.rxEn = s.rxEn)
      (hsel : t.auxSel = s.auxSel) (hq : t.ph = .idle ∨ t.ph = .send)
  | leaveTransmit (hp : s.ph = .swrxA) (hdir : t.dir = s.dir) (htx : t.txEn = false) (hrx : t.rxEn = s.rxEn)
      (hsel : selFor .receive s = .ok t.auxSel) (hq : t.ph = .swrxB)
  | enterReceive (hp : s.ph = .swrxB) (hdir : t.dir = .receive) (htx : t.txEn = s.txEn) (hrx : t.rxEn = true)
      (hsel : t.auxSel = s.auxSel) (hq : t.ph = .idle ∨ t.ph = .read)

theorem EngineMove.directionMove (h : EngineMove s t) : DirectionMove s t := by
  cases h with
  | accept _ _ ha => cases ha <;> exact .kept rfl rfl rfl rfl (by simp) (by simp) (by simp)
  | leaveReceive hp hv => exact .leaveReceive hp rfl rfl rfl hv rfl
  | enterTransmit hp => exact .enterTransmit hp rfl rfl rfl rfl (.inl rfl)
  | startSend hp => exact .enterTransmit hp rfl rfl rfl rfl (.inr rfl)
  | leaveTransmit hp hv => exact .leaveTransmit hp rfl rfl rfl hv rfl
  | enterReceive hp => exact .enterReceive hp rfl rfl rfl rfl (.inl rfl)
  | startRead hp => exact .enterReceive hp rfl rfl rfl rfl (.inr rfl)
  | _ => exact .kept rfl rfl rfl rfl (by simp [*]) (by simp [*]) (by simp [*])

/-- A move as the capture buffer sees it (spec/42_capture.md R110, spec/43_framer.md R116): the engine never writes `CAP`. -/
inductive CaptureMove (s t : State) : Prop
  | kept (hwr : t.wr = s.wr) (hrd : t.rd = s.rd) (hovf : t.ovf = s.ovf)
  | consumed (hp : s.ph = .read) (hr : s.rd < s.wr) (hwr : t.wr = s.wr) (hrd : t.rd = s.rd + 1) (hovf : t.ovf = s.ovf)
  | emptied (hp : s.ph = .swtxB ∨ s.ph = .swrxB) (hwr : t.wr = 0) (hrd : t.rd = 0) (hovf : t.ovf = false)

theorem EngineMove.captureMove (h : EngineMove s t) : CaptureMove s t := by
  cases h with
  | accept _ _ ha => cases ha <;> exact .kept rfl rfl rfl
  | enterTransmit hp | startSend hp => exact .emptied (.inl hp) rfl rfl rfl
  | enterReceive hp | startRead hp => exact .emptied (.inr hp) rfl rfl rfl
  | skip hp hr | storeMore hp hr | storeLast hp hr => exact .consumed hp hr rfl rfl rfl
  | _ => exact .kept rfl rfl rfl

/-- What the engine never writes: `CAP`, the trace `RXIN`, the parameters, the environment (spec/10_state.md R14, R105, R188). -/
theorem EngineMove.untouched (h : EngineMove s t) :
    t.cap = s.cap ∧ t.rxin = s.rxin ∧ t.cfg = s.cfg ∧ t.inputs = s.inputs ∧ t.pins = s.pins ∧ t.clock = s.clock := by
  cases h with
  | accept _ _ ha => cases ha <;> exact ⟨rfl, rfl, rfl, rfl, rfl, rfl⟩
  | _ => exact ⟨rfl, rfl, rfl, rfl, rfl, rfl⟩

theorem EngineMove.cap_eq (h : EngineMove s t) : t.cap = s.cap := h.untouched.1
theorem EngineMove.cfg_eq (h : EngineMove s t) : t.cfg = s.cfg := by
  obtain ⟨-, -, hcfg, -⟩ := h.untouched
  exact hcfg

/-- A move as the reader's window sees it (spec/43_framer.md R115, R117, R124). -/
inductive WindowMove (s t : State) : Prop
  | kept (hasm : t.asm = s.asm) (hcnt : t.cnt = s.cnt) (hexp : t.expect = s.expect) (hfv : t.frameValid = s.frameValid)
      (hlen : t.lenOk = s.lenOk) (hq : t.ph ≠ .check) (hr : t.ph = .read → s.ph = .read ∧ t.cur = s.cur)
  | stored (b : Byte) (hp : s.ph = .read) (hf : notFrameStart s.cnt b = false) (hd : duplicateSync s.cnt b = false)
      (hn : s.cnt < s.cfg.capDepth) (hasm : t.asm = Memory.write s.asm s.cnt b) (hcnt : t.cnt = s.cnt + 1)
      (hexp : t.expect = s.expect) (hfv : t.frameValid = s.frameValid) (hlen : t.lenOk = s.lenOk) (hcur : t.cur = s.cur)
      (hq : (t.ph = .read ∧ s.cnt + 1 ≠ s.expect) ∨ (t.ph = .check ∧ s.cnt + 1 = s.expect))
  | started (hasm : t.asm = s.asm) (hcnt : t.cnt = 0) (hfv : t.frameValid = false) (hlen : t.lenOk = false)
      (hq : t.ph = .read)
      (hexp : (s.ph = .idle ∧ fieldOp t.cur = opReadPacket ∧ t.expect = (fieldDataLo t.cur).toNat ∧
          countLegal s.cfg (fieldDataLo t.cur) = true) ∨
        (s.ph = .swrxB ∧ t.cur = s.cur ∧ fieldOp s.cur = opGetReg ∧ t.expect = responseSize (fieldDataLo s.cur)))
  | cleared (hp : s.ph = .idle) (hop : fieldOp t.cur = opInit) (hasm : t.asm = s.asm) (hcnt : t.cnt = 0)
      (hexp : t.expect = s.expect) (hfv : t.frameValid = false) (hlen : t.lenOk = false) (hq : t.ph = .swrxA)
  | accepted (l : List Byte) (hp : s.ph = .check) (hl : readBytes .asm s 2 (s.expect - 2) = .ok l)
      (hs : frameSumOk l = true) (hasm : t.asm = s.asm) (hcnt : t.cnt = s.cnt) (hexp : t.expect = s.expect)
      (hfv : t.frameValid = true) (hq : t.ph = .idle) (hv : t.rspValid = true) (hok : t.rspOk = true)

theorem EngineMove.windowMove (h : EngineMove s t) : WindowMove s t := by
  cases h with
  | accept hp _ ha =>
    cases ha with
    | read hop _ hn => exact .started rfl rfl rfl rfl rfl (.inl ⟨hp, hop, rfl, hn⟩)
    | init hw => exact .cleared hp (by simp [hw]) rfl rfl rfl rfl rfl rfl
    | _ => exact .kept rfl rfl rfl rfl rfl (by simp) (by simp)
  | startRead hp ho => exact .started rfl rfl rfl rfl rfl (.inr ⟨hp, rfl, ho, rfl⟩)
  | storeMore hp _ hf hd hn he => exact .stored _ hp hf hd hn rfl rfl rfl rfl rfl rfl (.inl ⟨hp, he⟩)
  | storeLast hp _ hf hd hn he => exact .stored _ hp hf hd hn rfl rfl rfl rfl rfl rfl (.inr ⟨rfl, he⟩)
  | acceptFrame hp hl hs => exact .accepted _ hp hl hs rfl rfl rfl rfl rfl rfl rfl
  | finishGetReg hp hl hs => exact .accepted _ hp hl hs rfl rfl rfl rfl rfl rfl rfl
  | _ => exact .kept rfl rfl rfl rfl rfl (by simp [*]) (by simp [*])

/-- A move as the serializer sees it (spec/44_serializer.md R133, R140). -/
inductive FrameMove (s t : State) : Prop
  | kept (hcur : t.cur = s.cur) (hbuf : t.txbuf = s.txbuf) (hlen : t.txlen = s.txlen) (hpos : t.txpos = s.txpos)
      (hlog : t.txlog = s.txlog) (hA : t.ph ≠ .swtxA) (hB : t.ph = .swtxB → s.ph = .swtxA)
      (hS : t.ph = .send → s.ph = .send ∨ (s.ph = .swtxB ∧ switchOnly s.cur = false))
  | latched (hp : s.ph = .idle) (hv : s.pins.cmdValid = true) (hcur : t.cur = s.pins.cmdWord) (hbuf : t.txbuf = s.txbuf)
      (hlen : t.txlen = s.txlen) (hpos : t.txpos = s.txpos) (hlog : t.txlog = s.txlog)
      (hA : t.ph = .swtxA → switchOnly t.cur = true) (hB : t.ph ≠ .swtxB) (hS : t.ph ≠ .send)
  | built (id inst : Byte) (params : List Byte) (hp : s.ph = .idle) (hv : s.pins.cmdValid = true)
      (hcur : t.cur = s.pins.cmdWord) (hparams : params.length = 2 ∨ params.length = 3)
      (hbuf : t.txbuf = Memory.writeList s.txbuf 0 (frameBytes id inst params))
      (hlen : t.txlen = (frameBytes id inst params).length) (hpos : t.txpos = 0) (hlog : t.txlog = s.txlog) (hq : t.ph = .swtxA)
  | sent (b : Byte) (hp : s.ph = .send) (hr : s.pins.txReady = true) (hb : Memory.read s.txbuf s.txpos = some b)
      (hcur : t.cur = s.cur) (hbuf : t.txbuf = s.txbuf) (hlen : t.txlen = s.txlen) (hpos : t.txpos = s.txpos + 1)
      (hlog : t.txlog = s.txlog ++ [b]) (hq : (t.ph = .send ∧ s.txpos + 1 ≠ s.txlen) ∨ t.ph = .idle ∨ t.ph = .swrxA)

theorem EngineMove.frameMove (h : EngineMove s t) : FrameMove s t := by
  cases h with
  | accept hp hv ha =>
    cases ha with
    | send _ _ _ hlen => exact .built _ _ _ hp hv rfl hlen rfl rfl rfl rfl rfl
    | switchTx hop => exact .latched hp hv rfl rfl rfl rfl rfl (fun _ => hop) (by simp) (by simp)
    | _ => exact .latched hp hv rfl rfl rfl rfl rfl (by simp) (by simp) (by simp)
  | sendMore hp hr hb hl => exact .sent _ hp hr hb rfl rfl rfl rfl rfl (.inl ⟨hp, hl⟩)
  | sendLastAll hp hr hb => exact .sent _ hp hr hb rfl rfl rfl rfl rfl (.inr (.inl rfl))
  | sendLast hp hr hb => exact .sent _ hp hr hb rfl rfl rfl rfl rfl (.inr (.inr rfl))
  | startSend hp ho => exact .kept rfl rfl rfl rfl rfl (by simp) (by simp) (fun _ => .inr ⟨hp, ho⟩)
  | _ => exact .kept rfl rfl rfl rfl rfl (by simp [*]) (by simp [*]) (by simp [*])

/-- A move as the response registers see it (spec/10_state.md R28, R30). -/
inductive ResponseMove (s t : State) : Prop
  | ended (hv : t.rspValid = true) (hq : t.ph = .idle) (hp : s.ph ≠ .idle ∨ s.pins.cmdValid = true)
      (hk : t.rspOk = true ↔ t.rspKind = .none) (hf : t.rspOk = false → t.rspValue = 0xFFFF)
  | silent (hv : t.rspValid = false) (hq : t.ph = .idle → s.ph = .idle ∧ s.pins.cmdValid = false) (hok : t.rspOk = s.rspOk)
      (hkind : t.rspKind = s.rspKind) (hval : t.rspValue = s.rspValue)

/-- A success ends a command. -/
theorem responseMove_succeed {u : State} {v : Word16} (hp : s.ph ≠ .idle ∨ s.pins.cmdValid = true) :
    ResponseMove s (succeed v u) := .ended rfl rfl hp (by simp) (by simp)

/-- A failure ends a command. -/
theorem responseMove_raiseFail {u : State} {k : Kind} (hk : k ≠ .none) (hp : s.ph ≠ .idle ∨ s.pins.cmdValid = true) :
    ResponseMove s (raiseFail k u) := .ended rfl rfl hp (by simp [hk]) (by simp)

theorem EngineMove.responseMove (h : EngineMove s t) : ResponseMove s t := by
  cases h with
  | quiet hp hv => exact .silent rfl (fun _ => ⟨hp, hv⟩) rfl rfl rfl
  | refuse hp hv => exact responseMove_raiseFail (by simp) (.inr hv)
  | accept hp hv ha =>
    cases ha with
    | lastError => exact responseMove_succeed (.inr hv)
    | _ => exact .silent rfl (by simp) rfl rfl rfl
  | enterTransmit hp | enterReceive hp | sendLastAll hp | acceptFrame hp | finishGetReg hp =>
    exact responseMove_succeed (.inl (by simp [hp]))
  | failRead hp hk => exact responseMove_raiseFail (by rcases hk with rfl | rfl <;> simp) (.inl (by simp [hp]))
  | failCheck hp => exact responseMove_raiseFail (by simp) (.inl (by simp [hp]))
  | _ => exact .silent rfl (by simp [*]) rfl rfl rfl

/-- `LASTERR` changes in the `CHECK` of a successful `GET_REG` only, to the status byte (spec/10_state.md R22). -/
theorem EngineMove.lasterr_cases (h : EngineMove s t) : t.lasterr = s.lasterr ∨
    (s.ph = .check ∧ fieldOp s.cur = opGetReg ∧ t.rspValid = true ∧ t.rspOk = true ∧ Memory.read s.asm 4 = some t.lasterr) := by
  cases h with
  | accept _ _ ha => cases ha <;> exact .inl rfl
  | finishGetReg hp _ _ ho hst => exact .inr ⟨hp, ho, rfl, rfl, hst⟩
  | _ => exact .inl rfl

/-- `BAUD` changes in the acceptance of an `INIT` only, to its operand (R23). -/
theorem EngineMove.baud_cases (h : EngineMove s t) : t.baud = s.baud ∨
    (s.ph = .idle ∧ s.pins.cmdValid = true ∧ s.pins.cmdWord = initWord t.baud) := by
  cases h with
  | accept hp hv ha =>
    cases ha with
    | init hw => exact .inr ⟨hp, hv, hw⟩
    | _ => exact .inl rfl
  | _ => exact .inl rfl

/-- `WAITC` is kept, set to 0, or counts an empty poll within the budget (R177). -/
theorem EngineMove.waitc_cases (h : EngineMove s t) :
    t.waitc = s.waitc ∨ t.waitc = 0 ∨ (t.waitc = s.waitc + 1 ∧ s.waitc ≠ s.cfg.waitBudget) := by
  cases h with
  | accept _ _ ha =>
    cases ha with
    | read => exact .inr (.inl rfl)
    | _ => exact .inl rfl
  | startRead | skip | storeMore | storeLast => exact .inr (.inl rfl)
  | poll _ hw => exact .inr (.inr ⟨rfl, hw⟩)
  | _ => exact .inl rfl

/-- The command in progress is kept until it ends, and a new one has passed the checks of its acceptance (R29, R65). -/
theorem EngineMove.command_cases (h : EngineMove s t) : t.ph = .idle ∨ (s.ph ≠ .idle ∧ t.cur = s.cur) ∨
    ((fieldOp t.cur = opInit ∨ idLegal (fieldId t.cur) = true) ∧
      (fieldOp t.cur = opGetReg → widthLegal (fieldDataLo t.cur) = true)) := by
  cases h with
  | accept _ _ ha =>
    cases ha with
    | switchTx hop hid =>
      refine .inr (.inr ⟨.inr hid, fun h => ?_⟩)
      simp [switchOnly, show fieldOp s.pins.cmdWord = opGetReg from h, opGetReg, opSwTx, opSwAllTx] at hop
    | switchRx hop hid => exact .inr (.inr ⟨.inr hid, fun h => absurd (hop.symm.trans h) (by decide)⟩)
    | send _ hid hwidth => exact .inr (.inr ⟨.inr hid, hwidth⟩)
    | read hop hid => exact .inr (.inr ⟨.inr hid, fun h => absurd (hop.symm.trans h) (by decide)⟩)
    | init hw =>
      have hop : fieldOp s.pins.cmdWord = opInit := by simp [hw]
      exact .inr (.inr ⟨.inl hop, fun h => absurd (hop.symm.trans h) (by decide)⟩)
    | lastError => exact .inl rfl
  | quiet hp => exact .inl hp
  | refuse | enterTransmit | enterReceive | sendLastAll | failRead | failCheck | acceptFrame | finishGetReg => exact .inl rfl
  | _ => exact .inr (.inl ⟨by simp [*], rfl⟩)

end Sys2Proof.Machine
end

section
/-! PROOFS. The invariant: every move of the engine keeps each of its clauses, so does the receive step, and a reset restores it. -/

namespace Sys2Proof.Safety

open Machine

theorem writtenBelow_zero (m : Memory) : WrittenBelow m 0 := fun _ h => absurd h (Nat.not_lt_zero _)

section
variable {s t : State} (hi : Inv s) (h : EngineMove s t)
include hi h

/-! ### The direction registers -/

theorem halfDuplex_of_move : HalfDuplex t := by
  rintro ⟨htx, hrx⟩
  cases h.directionMove with
  | kept _ hetx herx => exact hi.halfDuplex ⟨hetx ▸ htx, herx ▸ hrx⟩
  | leaveReceive _ _ _ herx => simp [herx] at hrx
  | enterTransmit hp _ _ herx => simp [herx, hi.betweenSteps.1 hp] at hrx
  | leaveTransmit _ _ hetx => simp [hetx] at htx
  | enterReceive hp _ hetx => simp [hetx, hi.betweenSteps.2 hp] at htx

theorem directionAgrees_of_move : DirectionAgrees t := by
  obtain ⟨hT, hR⟩ := hi.directionAgrees
  cases h.directionMove with
  | kept hdir hetx herx => exact ⟨by rwa [hetx, hdir], by rwa [herx, hdir]⟩
  | leaveReceive _ hdir hetx herx => exact ⟨by rwa [hetx, hdir], by simp [herx]⟩
  | enterTransmit hp hdir _ herx => exact ⟨fun _ => hdir, by simp [herx, hi.betweenSteps.1 hp]⟩
  | leaveTransmit _ hdir hetx herx => exact ⟨by simp [hetx], by rwa [herx, hdir]⟩
  | enterReceive hp hdir hetx => exact ⟨by simp [hetx, hi.betweenSteps.2 hp], fun _ => hdir⟩

theorem sendsInTransmit_of_move : SendsInTransmit t := fun hq => by
  cases h.directionMove with
  | kept _ hetx _ _ _ _ hS => exact hetx ▸ hi.sendsInTransmit (hS hq)
  | enterTransmit _ _ hetx => exact hetx
  | leaveReceive _ _ _ _ _ hq' | leaveTransmit _ _ _ _ _ hq' | enterReceive _ _ _ _ _ hq' => simp [hq] at hq'

omit hi in
theorem betweenSteps_of_move : (t.ph = .swtxB → t.rxEn = false) ∧ (t.ph = .swrxB → t.txEn = false) := by
  cases h.directionMove with
  | kept _ _ _ _ hA hB => exact ⟨fun hq => absurd hq hA, fun hq => absurd hq hB⟩
  | leaveReceive _ _ _ herx _ hq => exact ⟨fun _ => herx, by simp [hq]⟩
  | leaveTransmit _ _ hetx _ _ hq => exact ⟨by simp [hq], fun _ => hetx⟩
  | enterTransmit _ _ _ _ _ hq | enterReceive _ _ _ _ _ hq => rcases hq with hq | hq <;> simp [hq]

omit h in
/-- Every selector of a switch fits the port (spec/41_direction.md R94). -/
theorem selFor_fits {d : Direction} {v : Byte} (hv : selFor d s = .ok v) : v.toNat < 2 ^ s.cfg.selW := by
  obtain ⟨-, -, -, -, -, -, -, hsel, hall⟩ := hi.legal
  rcases selFor_eq_ok.1 hv with ⟨_, rfl⟩ | ⟨_, ⟨_, rfl⟩ | ⟨_, _, rfl⟩ | ⟨_, _, hs⟩⟩
  · exact hi.selectorFits
  · simp
  · exact hall
  · exact hsel v (List.mem_of_getElem? hs)

theorem selector_of_move : t.auxSel.toNat < 2 ^ t.cfg.selW ∧ (t.cfg.dirMode = .shared → t.auxSel = 0) := by
  have shared {d : Direction} {v : Byte} (hv : selFor d s = .ok v) (hm : s.cfg.dirMode = .shared) : v = 0 := by
    rw [selFor_shared hm, Except.ok.injEq] at hv
    exact hv ▸ hi.selectorShared hm
  rw [h.cfg_eq]
  cases h.directionMove with
  | kept _ _ _ hsel | enterTransmit _ _ _ _ hsel | enterReceive _ _ _ _ hsel =>
    exact hsel ▸ ⟨hi.selectorFits, hi.selectorShared⟩
  | leaveReceive _ _ _ _ hsel | leaveTransmit _ _ _ _ hsel => exact ⟨selFor_fits hi hsel, shared hsel⟩

/-! ### The capture buffer -/

theorem positionsInRange_of_move : PositionsInRange t := by
  obtain ⟨hrd, hwr⟩ := hi.positionsInRange
  rw [PositionsInRange, h.cfg_eq]
  cases h.captureMove <;> omega

theorem overflowMeansFull_of_move : OverflowMeansFull t := by
  rw [OverflowMeansFull, h.cfg_eq]
  cases h.captureMove with
  | kept hwr _ hovf | consumed _ _ hwr _ hovf => rw [hwr, hovf]; exact hi.overflowMeansFull
  | emptied _ _ _ hovf => simp [hovf]

theorem captured_of_move : WrittenBelow t.cap t.wr := by
  rw [h.cap_eq]
  cases h.captureMove with
  | kept hwr | consumed _ _ hwr => exact hwr ▸ hi.captured
  | emptied _ hwr => exact hwr ▸ writtenBelow_zero _

/-! ### The reader and its window -/

omit hi h in
/-- The bytes that `CHECK` reads are the window of the assembly buffer. -/
theorem windowBytes_of_readBytes {n : Nat} {l : List Byte} (hl : readBytes .asm s 2 (n - 2) = .ok l) :
    windowBytes s.asm n = l := by
  obtain ⟨hlen, hr⟩ := readBytes_eq_ok.1 hl
  exact windowBytes_eq_of_read hlen fun k hk => (readByte_eq_ok.1 (hr k hk)).2.trans (List.getElem?_eq_getElem hk).symm

omit h in
/-- A read that starts has a legal size: the count of a `READ_PACKET`, 7 or 8 for a `GET_REG` (R65, R149). -/
theorem started_reading (hexp : (s.ph = .idle ∧ fieldOp t.cur = opReadPacket ∧ t.expect = (fieldDataLo t.cur).toNat ∧
      countLegal s.cfg (fieldDataLo t.cur) = true) ∨
    (s.ph = .swrxB ∧ t.cur = s.cur ∧ fieldOp s.cur = opGetReg ∧ t.expect = responseSize (fieldDataLo s.cur))) :
    6 ≤ t.expect ∧ t.expect ≤ s.cfg.capDepth := by
  rcases hexp with ⟨_, _, he, hn⟩ | ⟨hp, _, ho, he⟩
  · simpa [he, countLegal] using hn
  · have hw := (hi.inRange (by simp [hp])).2 ho
    have hdepth := hi.legal.1
    simp only [widthLegal, Bool.or_eq_true, beq_iff_eq] at hw
    rw [he]
    rcases hw with hw | hw <;> simp [hw, responseSize] <;> omega

theorem reading_of_move : (t.ph = .read ∨ t.ph = .check) → 6 ≤ t.expect ∧ t.expect ≤ t.cfg.capDepth := fun hq => by
  rw [h.cfg_eq]
  cases h.windowMove with
  | kept _ _ hexp _ _ hc hr => exact hexp ▸ hi.reading (.inl (hr (hq.resolve_right hc)).1)
  | stored _ hp _ _ _ _ _ hexp => exact hexp ▸ hi.reading (.inl hp)
  | started _ _ _ _ _ hexp => exact started_reading hi hexp
  | cleared _ _ _ _ _ _ _ hq' | accepted _ _ _ _ _ _ _ _ hq' => simp [hq'] at hq

theorem countInRange_of_move : CountInRange t := by
  cases h.windowMove with
  | kept _ hcnt hexp _ _ hc hr =>
    exact ⟨fun hq => by rw [hcnt, hexp]; exact hi.countInRange.1 (.inl (hr (hq.resolve_right hc)).1), fun hq => absurd hq hc⟩
  | stored _ hp _ _ _ _ hcnt hexp _ _ _ hq =>
    have := hi.incomplete hp
    rw [CountInRange, hcnt, hexp]
    refine ⟨fun _ => this, fun hc => ?_⟩
    rcases hq with ⟨hq, _⟩ | ⟨_, he⟩
    · simp [hq] at hc
    · exact he
  | started _ hcnt _ _ hq => exact ⟨by simp [hcnt], by simp [hq]⟩
  | cleared _ _ _ _ _ _ _ hq | accepted _ _ _ _ _ _ _ _ hq => simp [CountInRange, hq]

theorem incomplete_of_move : t.ph = .read → t.cnt < t.expect := fun hq => by
  cases h.windowMove with
  | kept _ hcnt hexp _ _ _ hr => rw [hcnt, hexp]; exact hi.incomplete (hr hq).1
  | stored _ hp _ _ _ _ hcnt hexp _ _ _ hq' =>
    have := hi.incomplete hp
    rcases hq' with ⟨_, hne⟩ | ⟨hq', _⟩
    · omega
    · simp [hq] at hq'
  | started _ hcnt _ _ _ hexp => have := started_reading hi hexp; omega
  | cleared _ _ _ _ _ _ _ hq' | accepted _ _ _ _ _ _ _ _ hq' => simp [hq'] at hq

theorem assembled_of_move : WrittenBelow t.asm t.cnt ∧ t.cnt ≤ t.cfg.capDepth := by
  rw [h.cfg_eq]
  cases h.windowMove with
  | kept hasm hcnt | accepted _ _ _ _ hasm hcnt => rw [hasm, hcnt]; exact hi.assembled
  | stored b _ _ _ hn hasm hcnt => rw [hasm, hcnt]; exact ⟨writtenBelow_write_succ b hi.assembled.1, hn⟩
  | started _ hcnt | cleared _ _ _ hcnt => rw [hcnt]; exact ⟨writtenBelow_zero _, Nat.zero_le _⟩

theorem asm_of_move : Memory.wf t.asm ∧ IndicesBelow t.asm t.cfg.capDepth := by
  obtain ⟨-, hwf, -⟩ := hi.arraysWf
  obtain ⟨-, hbound, -⟩ := hi.arraysBounded
  rw [h.cfg_eq]
  cases h.windowMove with
  | stored b _ _ _ hn hasm => rw [hasm]; exact ⟨Memory.wf_write _ b hwf, indicesBelow_write hbound hn⟩
  | kept hasm | accepted _ _ _ _ hasm | started hasm | cleared _ _ hasm => rw [hasm]; exact ⟨hwf, hbound⟩

/-- Resynchronization stores no byte but the marker at index 0 and no marker at index 2 (R117, R118). -/
theorem synced_of_move :
    (0 < t.cnt → Memory.read t.asm 0 = some 0xFF) ∧ (2 < t.cnt → Memory.read t.asm 2 ≠ some 0xFF) := by
  obtain ⟨h0, h2⟩ := hi.synced
  cases h.windowMove with
  | kept hasm hcnt | accepted _ _ _ _ hasm hcnt => rw [hasm, hcnt]; exact hi.synced
  | started _ hcnt | cleared _ _ _ hcnt => simp [hcnt]
  | stored b _ hf hd _ hasm hcnt =>
    rw [hasm, hcnt, Memory.read_write, Memory.read_write]
    refine ⟨fun _ => ?_, fun hlt => ?_⟩
    · split
      · simp_all [notFrameStart, Config.sync]
      · exact h0 (by omega)
    · split
      · simp_all [duplicateSync, Config.sync]
      · exact h2 (by omega)

theorem readerStarted_of_move : (t.ph = .read ∨ t.ph = .check) → t.frameValid = false ∧ t.lenOk = false := fun hq => by
  cases h.windowMove with
  | kept _ _ _ hfv hlen hc hr => rw [hfv, hlen]; exact hi.readerStarted (.inl (hr (hq.resolve_right hc)).1)
  | stored _ hp _ _ _ _ _ _ hfv hlen => rw [hfv, hlen]; exact hi.readerStarted (.inl hp)
  | started _ _ hfv hlen | cleared _ _ _ _ _ hfv hlen => exact ⟨hfv, hlen⟩
  | accepted _ _ _ _ _ _ _ _ hq' => simp [hq'] at hq

theorem validFrame_of_move :
    t.frameValid = true → t.cnt = t.expect ∧ 6 ≤ t.cnt ∧ frameSumOk (windowBytes t.asm t.cnt) = true := fun hv => by
  cases h.windowMove with
  | kept hasm hcnt hexp hfv => rw [hasm, hcnt, hexp]; exact hi.validFrame (hfv ▸ hv)
  | stored _ hp _ _ _ _ _ _ hfv => simp [hfv, (hi.readerStarted (.inl hp)).1] at hv
  | started _ _ hfv | cleared _ _ _ _ _ hfv => simp [hfv] at hv
  | accepted l hp hl hs hasm hcnt hexp =>
    have hce := hi.countInRange.2 hp
    rw [hasm, hcnt, hexp, hce, windowBytes_of_readBytes hl]
    exact ⟨rfl, (hi.reading (.inr hp)).1, hs⟩

theorem lengthFlag_of_move : t.lenOk = true → t.frameValid = true := fun hv => by
  cases h.windowMove with
  | kept _ _ _ hfv hlen | stored _ _ _ _ _ _ _ _ hfv hlen => rw [hfv]; exact hi.lengthFlag (hlen ▸ hv)
  | started _ _ _ hlen | cleared _ _ _ _ _ _ hlen => simp [hlen] at hv
  | accepted _ _ _ _ _ _ _ hfv => exact hfv

theorem responseExpected_of_move : (t.ph = .read ∨ t.ph = .check) → fieldOp t.cur = opGetReg →
    t.expect = responseSize (fieldDataLo t.cur) := fun hq ho => by
  cases h.windowMove with
  | kept _ _ hexp _ _ hc hr =>
    obtain ⟨hp, hcur⟩ := hr (hq.resolve_right hc)
    rw [hexp, hcur]
    exact hi.responseExpected (.inl hp) (hcur ▸ ho)
  | stored _ hp _ _ _ _ _ hexp _ _ hcur => rw [hexp, hcur]; exact hi.responseExpected (.inl hp) (hcur ▸ ho)
  | started _ _ _ _ _ hexp =>
    rcases hexp with ⟨_, hop, _⟩ | ⟨_, hcur, _, he⟩
    · exact absurd (hop.symm.trans ho) (by decide)
    · rw [he, hcur]
  | cleared _ _ _ _ _ _ _ hq' | accepted _ _ _ _ _ _ _ _ hq' => simp [hq'] at hq

/-! ### The frame that is sent -/

omit hi in
/-- A frame that is pending after a move was pending before it, or was built in it. -/
theorem pending_of_move (hq : FramePending t) :
    (FramePending s ∧ t.txbuf = s.txbuf ∧ t.txlen = s.txlen) ∨
    ∃ id inst params, (params.length = 2 ∨ params.length = 3) ∧
      t.txbuf = Memory.writeList s.txbuf 0 (frameBytes id inst params) ∧ t.txlen = (frameBytes id inst params).length := by
  cases h.frameMove with
  | kept hcur hbuf hlen _ _ hA hB hS =>
    refine .inl ⟨?_, hbuf, hlen⟩
    rcases hq with ⟨hq | hq, ho⟩ | hq
    · exact absurd hq hA
    · exact .inl ⟨.inl (hB hq), hcur ▸ ho⟩
    · exact (hS hq).elim .inr fun ⟨hp, ho⟩ => .inl ⟨.inr hp, ho⟩
  | latched _ _ _ _ _ _ _ hA hB hS =>
    rcases hq with ⟨hq | hq, ho⟩ | hq
    · simp [hA hq] at ho
    · exact absurd hq hB
    · exact absurd hq hS
  | built id inst params _ _ _ hparams hbuf hlen => exact .inr ⟨id, inst, params, hparams, hbuf, hlen⟩
  | sent _ hp _ _ _ hbuf hlen => exact .inl ⟨.inr hp, hbuf, hlen⟩

theorem framed_of_move (hq : FramePending t) : (t.txlen = 8 ∨ t.txlen = 9) ∧ WrittenBelow t.txbuf t.txlen := by
  rcases pending_of_move h hq with ⟨hp, hbuf, hlen⟩ | ⟨id, inst, params, hparams, hbuf, hlen⟩
  · rw [hbuf, hlen]; exact hi.framed hp
  · rw [hbuf, hlen]
    exact ⟨by rw [frameBytes_length]; omega, writtenBelow_writeList _ _⟩

theorem frameSummed_of_move (hq : FramePending t) : frameSumOk (windowBytes t.txbuf t.txlen) = true := by
  rcases pending_of_move h hq with ⟨hp, hbuf, hlen⟩ | ⟨id, inst, params, _, hbuf, hlen⟩
  · rw [hbuf, hlen]; exact hi.frameSummed hp
  · rw [hbuf, hlen, windowBytes_writeList]; exact frameSumOk_frameBytes id inst params

theorem frameFresh_of_move : ((t.ph = .swtxA ∨ t.ph = .swtxB) ∧ switchOnly t.cur = false) → t.txpos = 0 := fun ⟨hq, ho⟩ => by
  cases h.frameMove with
  | kept hcur _ _ hpos _ hA hB => exact hpos ▸ hi.frameFresh ⟨.inl (hB (hq.resolve_left hA)), hcur ▸ ho⟩
  | latched _ _ _ _ _ _ _ hA hB => simp [hA (hq.resolve_right hB)] at ho
  | built _ _ _ _ _ _ _ _ _ hpos => exact hpos
  | sent _ _ _ _ _ _ _ _ _ hq' => rcases hq' with ⟨hq', _⟩ | hq' | hq' <;> simp [hq'] at hq

theorem sendPositionInRange_of_move : SendPositionInRange t := fun hq => by
  cases h.frameMove with
  | kept _ _ hlen hpos _ _ _ hS =>
    rw [hlen, hpos]
    rcases hS hq with hp | ⟨hp, ho⟩
    · exact hi.sendPositionInRange hp
    · have hlen := (hi.framed (.inl ⟨.inr hp, ho⟩)).1
      have hpos := hi.frameFresh ⟨.inr hp, ho⟩
      omega
  | latched _ _ _ _ _ _ _ _ _ hS => exact absurd hq hS
  | built _ _ _ _ _ _ _ _ _ _ _ hq' => simp [hq'] at hq
  | sent _ hp _ _ _ _ hlen hpos _ hq' =>
    have := hi.sendPositionInRange hp
    rcases hq' with ⟨_, hne⟩ | hq' | hq'
    · omega
    all_goals simp [hq'] at hq

theorem txbuf_of_move : Memory.wf t.txbuf ∧ IndicesBelow t.txbuf Config.txDepth := by
  obtain ⟨-, -, hwf⟩ := hi.arraysWf
  obtain ⟨-, -, hbound⟩ := hi.arraysBounded
  cases h.frameMove with
  | kept _ hbuf | latched _ _ _ hbuf | sent _ _ _ _ _ hbuf => rw [hbuf]; exact ⟨hwf, hbound⟩
  | built id inst params _ _ _ hparams hbuf =>
    rw [hbuf]
    exact ⟨Memory.wf_writeList _ 0 hwf,
      indicesBelow_writeList _ 0 hbound (by simp only [frameBytes_length, Config.txDepth]; omega)⟩

/-! ### The command in progress and its response -/

theorem inRange_of_move : t.ph ≠ .idle → (fieldOp t.cur = opInit ∨ idLegal (fieldId t.cur) = true) ∧
    (fieldOp t.cur = opGetReg → widthLegal (fieldDataLo t.cur) = true) := fun hq => by
  rcases h.command_cases with hq' | ⟨hp, hcur⟩ | hr
  · exact absurd hq' hq
  · exact hcur ▸ hi.inRange hp
  · exact hr

theorem waitBounded_of_move : t.waitc ≤ t.cfg.waitBudget := by
  have := hi.waitBounded
  rw [h.cfg_eq]
  rcases h.waitc_cases with hw | hw | ⟨hw, hne⟩ <;> omega

omit hi in
theorem response_of_move : t.rspValid = true → t.ph = .idle ∧ (t.rspOk = true ↔ t.rspKind = .none) ∧
    (t.rspOk = false → t.rspValue = 0xFFFF) := fun hv => by
  cases h.responseMove with
  | ended _ hq _ hk hf => exact ⟨hq, hk, hf⟩
  | silent hv' => simp [hv'] at hv

/-- Every move of the engine keeps the invariant. -/
theorem inv_of_move : Inv t where
  legal := h.cfg_eq ▸ hi.legal
  halfDuplex := halfDuplex_of_move hi h
  directionAgrees := directionAgrees_of_move hi h
  sendsInTransmit := sendsInTransmit_of_move hi h
  positionsInRange := positionsInRange_of_move hi h
  countInRange := countInRange_of_move hi h
  sendPositionInRange := sendPositionInRange_of_move hi h
  overflowMeansFull := overflowMeansFull_of_move hi h
  betweenSteps := betweenSteps_of_move h
  arraysWf := ⟨h.cap_eq ▸ hi.arraysWf.1, (asm_of_move hi h).1, (txbuf_of_move hi h).1⟩
  arraysBounded := ⟨h.cap_eq ▸ h.cfg_eq ▸ hi.arraysBounded.1, (asm_of_move hi h).2, (txbuf_of_move hi h).2⟩
  captured := captured_of_move hi h
  assembled := assembled_of_move hi h
  framed := framed_of_move hi h
  frameSummed := frameSummed_of_move hi h
  frameFresh := frameFresh_of_move hi h
  reading := reading_of_move hi h
  incomplete := incomplete_of_move hi h
  inRange := inRange_of_move hi h
  responseExpected := responseExpected_of_move hi h
  waitBounded := waitBounded_of_move hi h
  selectorFits := (selector_of_move hi h).1
  selectorShared := (selector_of_move hi h).2
  synced := synced_of_move hi h
  validFrame := validFrame_of_move hi h
  lengthFlag := lengthFlag_of_move hi h
  readerStarted := readerStarted_of_move hi h
  response := response_of_move h

end

/-- The invariant is about the block alone: the trace of what was heard, the environment and the sampled pins are free. -/
theorem Inv.of_environment {s : State} (hi : Inv s) (p : Pins) (l : List Byte) (es : List Event) (n : Nat) :
    Inv { s with pins := p, rxin := l, inputs := es, clock := n } := { hi with }

/-- The capture of one byte keeps the invariant (spec/42_capture.md R105). -/
theorem inv_capture {s : State} (hi : Inv s) (b : Byte) : Inv (capture b s) := by
  obtain ⟨hrd, hwr⟩ := hi.positionsInRange
  rcases capture_cases b s with ⟨_, hroom, he⟩ | ⟨_, hfull, he⟩ | ⟨_, he⟩ <;> rw [he]
  · exact { hi with
      positionsInRange := ⟨Nat.le_succ_of_le hrd, hroom⟩
      overflowMeansFull := fun ho => absurd (hi.overflowMeansFull ho) (Nat.ne_of_lt hroom)
      arraysWf := ⟨Memory.wf_write _ b hi.arraysWf.1, hi.arraysWf.2⟩
      arraysBounded := ⟨indicesBelow_write hi.arraysBounded.1 hroom, hi.arraysBounded.2⟩
      captured := writtenBelow_write_succ b hi.captured }
  · exact { hi with overflowMeansFull := fun _ => Nat.le_antisymm hwr (Nat.le_of_not_lt hfull) }
  · exact hi

theorem inv_rxStep {s : State} (hi : Inv s) (v : Bool) (b : Byte) : Inv (rxStep v b s) := by
  cases v with
  | false => exact hi
  | true => exact inv_capture (hi.of_environment s.pins (s.rxin ++ [b]) s.inputs s.clock) b

theorem inv_receiveBytes {s : State} (hi : Inv s) (l : List Byte) : Inv (receiveBytes l s) := by
  induction l generalizing s with
  | nil => exact hi
  | cons b rest ih => exact ih (inv_rxStep hi true b)

/-- The reset state has the invariant, for every legal parameter set and every environment. -/
theorem inv_resetWith {p : Params} (hp : p.Legal) (trace : List Event) : Inv (State.resetWith p trace) := by
  constructor
  case legal => exact hp
  case captured => exact writtenBelow_zero _
  case assembled => exact ⟨writtenBelow_zero _, Nat.zero_le _⟩
  all_goals simp [HalfDuplex, DirectionAgrees, PositionsInRange, CountInRange, FramePending, Memory.wf]

theorem inv_resetBlock {s : State} (hi : Inv s) : Inv (resetBlock s) :=
  { inv_resetWith hi.legal s.inputs with }

end Sys2Proof.Safety

section
open Sys2Proof Machine Safety

/-- Settles O52: a step is the arrival of bytes, a reset, or a move of the engine and then a receive step, and each keeps the
invariant. -/
theorem stepKeepsTheInvariant : Obligations.StepKeepsTheInvariant := by
  intro s t hi h
  have hadv (p : Pins) : Inv (sample p (advance s)) := hi.of_environment p s.rxin s.inputs.tail (s.clock + 1)
  rcases step_eq_next.1 h with ⟨l, _, rfl⟩ | ⟨p, _, _, rfl⟩ | ⟨p, u, _, _, hu, rfl⟩
  · exact inv_receiveBytes (hadv s.pins) l
  · split
    · exact inv_resetBlock ((hadv p).of_environment p _ _ _)
    · exact inv_resetBlock (hadv p)
  · exact inv_rxStep (inv_of_move (hadv p) (engineMove_of_engineStep hu)) _ _

end
end

section
/-! PROOFS. What the invariant gives: it holds after reset, no step stops, every reachable state is safe, and the ports show only
bytes that were written. -/

namespace Sys2Proof.Safety

open Machine

/-- The defaults of R6 are legal for every legal wait budget. -/
theorem legal_defaults {budget : Nat} (h1 : 1 ≤ budget) (h2 : budget ≤ 4294967295) : (Config.defaults budget).Legal :=
  ⟨by simp [Config.defaults], by simp [Config.defaults], h1, h2, by simp [Config.defaults], by simp [Config.defaults],
    by simp [Config.defaults, Config.identitySel], fun v _ => v.isLt, BitVec.isLt _⟩

theorem legal_reset : (Config.defaults Config.resetWaitBudget).Legal :=
  legal_defaults (by simp [Config.resetWaitBudget]) Config.waitBudgetChoice.isLt

/-- The selector table covers every legal id (R6, R65). -/
theorem id_lt_sel_length {p : Params} (hp : p.Legal) {id : Byte} (hid : id ≠ 0xFF) : id.toNat < p.sel.length := by
  obtain ⟨-, -, -, -, -, -, hlen, -, -⟩ := hp
  rw [hlen]
  bv_omega

section
variable {s t : State}

/-- A byte below the written part of an array is read. -/
theorem readByte_total {buf : Buffer} {n i : Nat} (hw : WrittenBelow (bufferOf buf s) n) (hn : n ≤ bufferSize buf s)
    (h : i < n) : ∃ b, readByte buf s i = .ok b := by
  obtain ⟨b, hb⟩ := Option.isSome_iff_exists.1 (hw i h)
  exact ⟨b, readByte_of_written (h.trans_le hn) hb⟩

/-- The selector table has the entry that a running command asks for. -/
theorem selFor_total (hi : Inv s) (hp : s.ph ≠ .idle) (d : Direction) : ∃ v, selFor d s = .ok v := by
  simp only [selFor_eq_ok]
  cases hm : s.cfg.dirMode with
  | shared => simp
  | perDevice =>
    by_cases ho : fieldOp s.cur = opInit
    · simp [ho]
    by_cases ha : d = .transmit ∧ (fieldOp s.cur = opSwAllTx ∨ fieldAll s.cur = true)
    · simp [ho, ha]
    have hid := (hi.inRange hp).1.resolve_left ho
    have hlt := id_lt_sel_length hi.legal (id := fieldId s.cur) (by simpa [idLegal] using hid)
    exact ⟨s.cfg.sel[(fieldId s.cur).toNat], .inr ⟨rfl, .inr (.inr ⟨ho, ha, List.getElem?_eq_getElem hlt⟩)⟩⟩

theorem classify_total (h : s.cnt < s.cfg.capDepth) (b : Byte) : ∃ t, classify b s = .next t := by
  simp only [classify_eq_next]
  cases hf : notFrameStart s.cnt b with
  | true => exact ⟨s, .inl ⟨.inl rfl, rfl⟩⟩
  | false =>
    cases hd : duplicateSync s.cnt b with
    | true => exact ⟨s, .inl ⟨.inr rfl, rfl⟩⟩
    | false => exact ⟨_, .inr ⟨rfl, rfl, h, rfl⟩⟩

theorem sendStep_total (hi : Inv s) (hp : s.ph = .send) : ∃ t, sendStep (clearStrobe s) = .next t := by
  obtain ⟨hlen, hw⟩ := hi.framed (.inr hp)
  obtain ⟨b, hb⟩ := readByte_total (buf := .txbuf) hw (by simp only [bufferSize, Config.txDepth]; omega) (hi.sendPositionInRange hp)
  rw [← readByte_clearStrobe] at hb
  cases hr : s.pins.txReady with
  | false => exact ⟨_, sendStep_eq_next.2 (.inl ⟨hr, rfl⟩)⟩
  | true =>
    by_cases hl : s.txpos + 1 = s.txlen
    · cases ha : fieldAll s.cur with
      | true => exact ⟨_, sendStep_eq_next.2 (.inr ⟨hr, b, hb, .inr (.inl ⟨hl, ha, rfl⟩)⟩)⟩
      | false => exact ⟨_, sendStep_eq_next.2 (.inr ⟨hr, b, hb, .inr (.inr ⟨hl, ha, rfl⟩)⟩)⟩
    · exact ⟨_, sendStep_eq_next.2 (.inr ⟨hr, b, hb, .inl ⟨hl, rfl⟩⟩)⟩

theorem readStep_total (hi : Inv s) (hp : s.ph = .read) : ∃ t, readStep (clearStrobe s) = .next t := by
  by_cases hr : s.rd < s.wr
  · obtain ⟨b, hb⟩ := readByte_total (buf := .cap) hi.captured hi.positionsInRange.2 hr
    have hn : s.cnt < s.cfg.capDepth := (hi.incomplete hp).trans_le (hi.reading (.inl hp)).2
    obtain ⟨t, ht⟩ := classify_total (s := { clearStrobe s with rd := s.rd + 1, waitc := 0 }) hn b
    exact ⟨t, readStep_eq_next.2 (.inl ⟨hr, b, (readByte_clearStrobe ..).trans hb, ht⟩)⟩
  cases ho : s.ovf with
  | true => exact ⟨_, readStep_eq_next.2 (.inr (.inl ⟨hr, ho, rfl⟩))⟩
  | false =>
    by_cases hw : s.waitc = s.cfg.waitBudget
    · exact ⟨_, readStep_eq_next.2 (.inr (.inr (.inl ⟨hr, ho, hw, rfl⟩)))⟩
    · exact ⟨_, readStep_eq_next.2 (.inr (.inr (.inr ⟨hr, ho, hw, rfl⟩)))⟩

/-- The value of a `GET_REG` is in the window: `ASM[5]`, and `ASM[6]` for width 2 (R152). -/
theorem registerValue_total (hi : Inv s) (hp : s.ph = .check) (ho : fieldOp s.cur = opGetReg) :
    ∃ v, registerValue s = .ok v := by
  have hexp := hi.responseExpected (.inr hp) ho
  have hcnt := hi.countInRange.2 hp
  have hwidth := (hi.inRange (by simp [hp])).2 ho
  have hasm {i : Nat} (h : i < s.cnt) := readByte_total (buf := .asm) hi.assembled.1 hi.assembled.2 h
  simp only [widthLegal, Bool.or_eq_true, beq_iff_eq] at hwidth
  rcases hwidth with hwidth | hwidth <;> simp [hwidth, responseSize] at hexp
  · obtain ⟨lo, hlo⟩ := hasm (i := 5) (by omega)
    exact ⟨zext16 lo, by simp [registerValue, hlo, hwidth]⟩
  · obtain ⟨lo, hlo⟩ := hasm (i := 5) (by omega)
    obtain ⟨hb, hhb⟩ := hasm (i := 6) (by omega)
    exact ⟨word16 lo hb, by simp [registerValue, hlo, hhb, hwidth]⟩

theorem checkStep_total (hi : Inv s) (hp : s.ph = .check) : ∃ t, checkStep (clearStrobe s) = .next t := by
  have hcnt := hi.countInRange.2 hp
  have hexp := (hi.reading (.inr hp)).1
  have hasm {i : Nat} (h : i < s.cnt) := readByte_total (buf := .asm) hi.assembled.1 hi.assembled.2 h
  obtain ⟨l, hl⟩ := readBytes_of_written (buf := .asm) hi.assembled.2 hi.assembled.1 (i := 2) (n := s.expect - 2) (by omega)
  obtain ⟨len, hlen⟩ := hasm (i := 3) (by omega)
  obtain ⟨status, hst⟩ := hasm (i := 4) (by omega)
  simp only [checkStep_eq_next]
  refine exists_comm.1 ⟨l, ?_⟩
  simp only [readBytes_clearStrobe, readByte_clearStrobe, clearStrobe_expect, clearStrobe_cur, hl, true_and]
  cases hs : frameSumOk l with
  | false => exact ⟨_, .inl ⟨rfl, rfl⟩⟩
  | true =>
    by_cases ho : fieldOp s.cur = opGetReg
    · obtain ⟨v, hv⟩ := registerValue_total hi hp ho
      exact ⟨_, .inr ⟨rfl, len, hlen, .inr ⟨ho, status, v, hst, hv, rfl⟩⟩⟩
    · exact ⟨_, .inr ⟨rfl, len, hlen, .inl ⟨ho, rfl⟩⟩⟩

/-- The engine stops in no state of the invariant (spec/10_state.md R32). -/
theorem engineStep_total (hi : Inv s) : ∃ t, engineStep s = .next t := by
  cases hp : s.ph with
  | idle => rcases engineStep_idle hp with ⟨_, h⟩ | ⟨_, h⟩ | ⟨_, _, _, _, h⟩ <;> exact ⟨_, h⟩
  | swtxA =>
    obtain ⟨v, hv⟩ := selFor_total hi (by simp [hp]) .transmit
    exact ⟨_, (engineStep_swtxA hp).trans (swtxA_eq_next.2 ⟨v, hv, rfl⟩)⟩
  | swtxB => exact ⟨_, engineStep_swtxB hp⟩
  | send => exact (engineStep_send hp).symm ▸ sendStep_total hi hp
  | swrxA =>
    obtain ⟨v, hv⟩ := selFor_total hi (by simp [hp]) .receive
    exact ⟨_, (engineStep_swrxA hp).trans (swrxA_eq_next.2 ⟨v, hv, rfl⟩)⟩
  | swrxB => exact ⟨_, engineStep_swrxB hp⟩
  | read => exact (engineStep_read hp).symm ▸ readStep_total hi hp
  | check => exact (engineStep_check hp).symm ▸ checkStep_total hi hp

theorem runSteps_succ_eq_next {k : Nat} : runSteps (k + 1) s = .next t ↔ ∃ u, step s = .next u ∧ runSteps k u = .next t := by
  rw [runSteps]
  cases step s <;> simp

/-- The invariant holds along every run. -/
theorem inv_runSteps {k : Nat} (hi : Inv s) (h : runSteps k s = .next t) : Inv t := by
  induction k generalizing s with
  | zero => cases h; exact hi
  | succ k ih =>
    obtain ⟨u, hu, h⟩ := runSteps_succ_eq_next.1 h
    exact ih (stepKeepsTheInvariant s u hi hu) h

/-- R31 (d) follows from (b): a byte is captured only with the receiver enabled. -/
theorem capturesInReceive_of_directionAgrees (h : DirectionAgrees s) : CapturesInReceive s := fun b hb => by
  rcases capture_cases b s with ⟨hr, _, _⟩ | ⟨hr, _, _⟩ | ⟨_, he⟩
  · exact ⟨hr, h.2 hr⟩
  · exact ⟨hr, h.2 hr⟩
  · exact absurd (congrArg State.wr he) hb

theorem Inv.safe (hi : Inv s) : Safe s :=
  { hi with capturesInReceive := capturesInReceive_of_directionAgrees hi.directionAgrees }

/-- The frame window shows `ASM` below `CNT` and `0x00` from there on (spec/10_state.md R13). -/
theorem frameByte_spec (hi : Inv s) (idx : Byte) : ∃ b, frameByte s idx = some b ∧ (s.cnt ≤ idx.toNat → b = 0) ∧
    (idx.toNat < s.cnt → Memory.read s.asm idx.toNat = some b) := by
  unfold frameByte
  split
  · next hlt =>
    obtain ⟨b, hb⟩ := Option.isSome_iff_exists.1 (hi.assembled.1 _ hlt)
    exact ⟨b, hb, fun hge => absurd hge (Nat.not_le.2 hlt), fun _ => hb⟩
  · next hge => exact ⟨0, rfl, fun _ => rfl, fun hlt => absurd hlt hge⟩

/-- `tx_data` shows the byte presented in `SEND` and `0x00` in every other phase (R13). -/
theorem txData_spec (hi : Inv s) : ∃ b, txData s = some b ∧ (s.ph ≠ .send → b = 0) ∧
    (s.ph = .send → Memory.read s.txbuf s.txpos = some b) := by
  unfold txData
  split
  · next hp =>
    obtain ⟨b, hb⟩ := Option.isSome_iff_exists.1 ((hi.framed (.inr hp)).2 _ (hi.sendPositionInRange hp))
    exact ⟨b, hb, fun hne => absurd hp hne, fun _ => hb⟩
  · next hne => exact ⟨0, rfl, fun _ => rfl, fun hp => absurd hp hne⟩

theorem directionCode_eq_one {d : Direction} : directionCode d = 1 ↔ d = .transmit := by cases d <;> decide
theorem directionCode_eq_zero {d : Direction} : directionCode d = 0 ↔ d = .receive := by cases d <;> decide
theorem kindCode_toNat (k : Kind) : (kindCode k).toNat = Words.codeOf k := by cases k <;> rfl

end

end Sys2Proof.Safety

section
open Sys2Proof Machine Safety Words

/-- Settles O51: the reset state of legal parameters, and the wait budget chosen for `State.reset` is legal. -/
theorem resetHasTheInvariant : Obligations.ResetHasTheInvariant :=
  ⟨fun _ trace hp => inv_resetWith hp trace, inv_resetWith legal_reset []⟩

/-- Settles O53: arrivals and resets never stop, and the engine does not in a state of the invariant. -/
theorem noStepStops : Obligations.NoStepStops := by
  intro s hi
  simp only [step_eq_next]
  cases he : nextEvent s with
  | line l => exact ⟨_, .inl ⟨l, rfl, rfl⟩⟩
  | cycle p =>
    cases hr : p.rst with
    | true => exact ⟨_, .inr (.inl ⟨p, rfl, hr, rfl⟩)⟩
    | false =>
      obtain ⟨u, hu⟩ := engineStep_total (hi.of_environment p s.rxin s.inputs.tail (s.clock + 1))
      exact ⟨_, .inr (.inr ⟨p, u, rfl, hr, hu, rfl⟩)⟩

/-- Settles O54: the invariant holds along every run from reset, and implies the eight clauses. -/
theorem reachableStatesAreSafe : Obligations.ReachableStatesAreSafe :=
  fun _ trace _ _ hp h => (inv_runSteps (inv_resetWith hp trace) h).safe

/-- Settles O56: each port is its function of the registers; the frame window and `tx_data` show written bytes. -/
theorem outputsShowOnlyWrittenBytes : Obligations.OutputsShowOnlyWrittenBytes := by
  intro s idx hi
  have hcnt : (BitVec.ofNat 8 s.cnt).toNat = s.cnt := by
    have hdepth := hi.legal.2.1
    have hle := hi.assembled.2
    rw [BitVec.toNat_ofNat]
    omega
  have hdir := hi.directionAgrees
  exact ⟨by simp [outputs], rfl, rfl, kindCode_toNat _, rfl, frameByte_spec hi idx, hcnt, rfl, rfl, rfl, rfl, by simp [outputs],
    txData_spec hi, directionCode_eq_one, directionCode_eq_zero, rfl, rfl, rfl, hi.selectorFits, rfl, hi.halfDuplex,
    fun h => hi.sendsInTransmit (by simpa [outputs] using h), fun h => directionCode_eq_one.2 (hdir.1 h),
    fun h => directionCode_eq_zero.2 (hdir.2 h)⟩

end
end

section
/-! PROOFS. What a whole step can change, read off the moves of the engine: bytes that arrive write `CAP`, `WR`, `OVF` and `RXIN` only,
and a reset writes what R32 says. -/

namespace Sys2Proof.Machine

open Words

/-- A step: bytes arrive, a reset, or a move of the engine and then the receive step (spec/10_state.md R15, R16). -/
theorem step_cases {s t : State} (h : step s = .next t) :
    (∃ l, nextEvent s = .line l ∧ receiveBytes l (advance s) = t) ∨
    (∃ p, nextEvent s = .cycle p ∧ p.rst = true ∧
      resetBlock (if p.rxValid then hear p.rxData (sample p (advance s)) else sample p (advance s)) = t) ∨
    (∃ p u, EngineNext s p ∧ EngineMove (sample p (advance s)) u ∧ rxStep p.rxValid p.rxData u = t) := by
  rcases step_eq_next.1 h with hl | hr | ⟨p, u, he, hp, hu, ht⟩
  · exact .inl hl
  · exact .inr (.inl hr)
  · exact .inr (.inr ⟨p, u, ⟨he, hp⟩, engineMove_of_engineStep hu, ht⟩)

/-- In a cycle without reset the engine moves. -/
theorem step_engine {s t : State} {p : Pins} (hp : EngineNext s p) (h : step s = .next t) :
    ∃ u, EngineMove (sample p (advance s)) u ∧ rxStep p.rxValid p.rxData u = t := by
  obtain ⟨he, hr⟩ := hp
  rcases step_cases h with ⟨l, he', _⟩ | ⟨q, he', hr', _⟩ | ⟨q, u, ⟨he', _⟩, hm, ht⟩
  · simp [he] at he'
  · obtain rfl : p = q := by simpa [he] using he'
    simp [hr] at hr'
  · obtain rfl : p = q := by simpa [he] using he'
    exact ⟨u, hm, ht⟩

@[simp] theorem rxStep_rxin (v : Bool) (b : Byte) (s : State) :
    (rxStep v b s).rxin = s.rxin ++ if v then [b] else [] := by
  cases v <;> simp [rxStep_true]

@[simp] theorem receiveBytes_rxin (l : List Byte) (s : State) : (receiveBytes l s).rxin = s.rxin ++ l := by
  induction l generalizing s with
  | nil => simp
  | cons b rest ih => simp [ih]

/-- A switch changes the selector in `PER_DEVICE` mode only (spec/41_direction.md R94). -/
theorem perDevice_of_selFor {s : State} {d : Direction} {v : Byte} (h : selFor d s = .ok v) (hne : v ≠ s.auxSel) :
    s.cfg.dirMode = .perDevice := by
  cases hm : s.cfg.dirMode with
  | perDevice => rfl
  | shared =>
    rw [selFor_shared hm, Except.ok.injEq] at h
    exact absurd h.symm hne

/-- The word of `INIT` has the operation code in its high byte (spec/30_encoding.md R62). -/
theorem initWord_eq (baud : Word32) : initWord baud = 0x10#8 ++ baud := rfl

end Sys2Proof.Machine

section
open Sys2Proof Machine Safety Words

/-- Settles O28: the moves of the direction registers are the four steps of the switches. -/
theorem directionChangesOnlyInSwitches : Obligations.DirectionChangesOnlyInSwitches := by
  intro s t h hr
  rcases step_cases h with ⟨l, _, rfl⟩ | ⟨p, he, hp, _⟩ | ⟨p, u, _, hm, rfl⟩
  · simp
  · exact absurd ⟨p, he, hp⟩ hr
  · simp only [rxStep_dir, rxStep_txEn, rxStep_rxEn, rxStep_auxSel]
    cases hm.directionMove with
    | kept hdir htx hrx hsel => simp [hdir, htx, hrx, hsel]
    | leaveReceive hp hdir htx hrx hsel =>
      exact ⟨fun hne => absurd hdir hne, fun hne => absurd htx hne, fun _ => .inr ⟨hp, hrx⟩,
        fun hne => ⟨.inl hp, perDevice_of_selFor hsel hne⟩, fun hne => absurd htx hne⟩
    | enterTransmit hp hdir htx hrx hsel =>
      exact ⟨fun _ => .inl ⟨hp, hdir⟩, fun _ => .inl ⟨hp, htx⟩, fun hne => absurd hrx hne, fun hne => absurd hsel hne, fun _ => hrx⟩
    | leaveTransmit hp hdir htx hrx hsel =>
      exact ⟨fun hne => absurd hdir hne, fun _ => .inr ⟨hp, htx⟩, fun hne => absurd hrx hne,
        fun hne => ⟨.inr hp, perDevice_of_selFor hsel hne⟩, fun _ => hrx⟩
    | enterReceive hp hdir htx hrx hsel =>
      exact ⟨fun _ => .inr ⟨hp, hdir⟩, fun hne => absurd htx hne, fun _ => .inl ⟨hp, hrx⟩, fun hne => absurd hsel hne,
        fun hne => absurd htx hne⟩

/-- Settles O29: the one move that writes `LASTERR`, and the one that writes `BAUD`. -/
theorem lastErrorAndBaudAreKept : Obligations.LastErrorAndBaudAreKept := by
  intro s t h
  rcases step_cases h with ⟨l, _, rfl⟩ | ⟨p, he, hp, rfl⟩ | ⟨p, u, hp, hm, rfl⟩
  · exact ⟨.inl (by simp), .inl (by simp)⟩
  · exact ⟨.inr (.inl ⟨⟨p, he, hp⟩, rfl⟩), .inr (.inl ⟨⟨p, he, hp⟩, rfl⟩)⟩
  · simp only [rxStep_lasterr, rxStep_baud, rxStep_rspValid, rxStep_rspOk]
    exact ⟨hm.lasterr_cases.imp_right .inr,
      hm.baud_cases.imp_right fun ⟨hq, hv, hw⟩ => .inr ⟨hq, p, hp, hv, hw.trans (initWord_eq _)⟩⟩

/-- Settles O30: the frame in `TXBUF` and its word are latched in an acceptance, and `SEND` counts `TXPOS`. -/
theorem acceptedCommandIsLatched : Obligations.AcceptedCommandIsLatched := by
  intro s t h
  rcases step_cases h with ⟨l, _, rfl⟩ | ⟨p, he, hp, rfl⟩ | ⟨p, u, hp, hm, rfl⟩
  · exact ⟨.inl (by simp), .inl (by simp)⟩
  · exact ⟨.inr (.inl ⟨p, he, hp⟩), .inr (.inl ⟨rfl, p, he, hp⟩)⟩
  · simp only [rxStep_cur, rxStep_txbuf, rxStep_txlen, rxStep_txpos, rxStep_ph]
    cases hm.frameMove with
    | kept hcur hbuf hlen hpos => exact ⟨.inl ⟨hcur, hbuf, hlen⟩, .inl hpos⟩
    | latched hq hv hcur _ _ hpos => exact ⟨.inr (.inr ⟨hq, p, hp, hv, hcur⟩), .inl hpos⟩
    | built id inst params hq hv hcur hparams _ hlen hpos _ hA =>
      rw [frameBytes_length] at hlen
      exact ⟨.inr (.inr ⟨hq, p, hp, hv, hcur⟩), .inr (.inr (.inl ⟨hpos, hq, hA, by omega, p, hp, hv, hcur⟩))⟩
    | sent b hq hr _ hcur hbuf hlen hpos => exact ⟨.inl ⟨hcur, hbuf, hlen⟩, .inr (.inr (.inr ⟨hpos, hq, p, hp, hr⟩))⟩

/-- Settles O31: the moves of the window are a stored byte, a start, an `INIT` and an accepted frame. -/
theorem frameWindowIsKept : Obligations.FrameWindowIsKept := by
  intro s t h hr
  rcases step_cases h with ⟨l, _, rfl⟩ | ⟨p, he, hp, _⟩ | ⟨p, u, hp, hm, rfl⟩
  · simp
  · exact absurd ⟨p, he, hp⟩ hr
  · simp only [rxStep_asm, rxStep_cnt, rxStep_expect, rxStep_frameValid, rxStep_lenOk, rxStep_cur, rxStep_ph, rxStep_rspValid,
      rxStep_rspOk]
    cases hm.windowMove with
    | kept hasm hcnt hexp hfv hlen => simp [hasm, hcnt, hexp, hfv, hlen]
    | stored b hq _ _ _ _ hcnt hexp hfv hlen =>
      exact ⟨fun _ => hq, fun _ => .inl ⟨hq, hcnt⟩, fun hne => absurd hfv hne, fun hne => absurd hlen hne, fun hne => absurd hexp hne⟩
    | started hasm hcnt hfv hlen hq hexp =>
      have hp : s.ph = .idle ∨ s.ph = .swrxB := hexp.imp And.left And.left
      refine ⟨fun hne => absurd hasm hne, fun _ => .inr ⟨hcnt, ?_⟩, fun _ => .inr ⟨hfv, hlen, hcnt, hp⟩, fun _ => .inr ⟨hlen, hp⟩,
        fun _ => ⟨hq, hcnt, ?_⟩⟩
      · exact hexp.imp (fun ⟨hp, ho, _⟩ => ⟨hp, .inr ho⟩) fun ⟨hp, _, ho, _⟩ => ⟨hp, ho⟩
      · exact hexp.imp (fun ⟨hp, ho, he, _⟩ => ⟨hp, ho, he⟩) fun ⟨hp, _, ho, he⟩ => ⟨hp, ho, he⟩
    | cleared hq hop hasm hcnt hexp hfv hlen =>
      exact ⟨fun hne => absurd hasm hne, fun _ => .inr ⟨hcnt, .inl ⟨hq, .inl hop⟩⟩, fun _ => .inr ⟨hfv, hlen, hcnt, .inl hq⟩,
        fun _ => .inr ⟨hlen, .inl hq⟩, fun hne => absurd hexp hne⟩
    | accepted l hq _ _ hasm hcnt hexp hfv _ hv hok =>
      exact ⟨fun hne => absurd hasm hne, fun hne => absurd hcnt hne, fun _ => .inl ⟨hq, hfv, hv, hok⟩, fun _ => .inl hq,
        fun hne => absurd hexp hne⟩

/-- Settles O33: `TXLOG` grows in the move that sends a byte, `RXIN` in the receive step. -/
theorem tracesGrowAndParametersStay : Obligations.TracesGrowAndParametersStay := by
  intro s t h
  rcases step_cases h with ⟨l, he, rfl⟩ | ⟨p, he, hp, rfl⟩ | ⟨p, u, hp, hm, rfl⟩
  · simp [deliveredNext, he]
  · cases hv : p.rxValid <;> simp [deliveredNext, he, hv]
  · obtain ⟨_, hrxin, hcfg, _⟩ := hm.untouched
    simp only [rxStep_txlog, rxStep_rxin, rxStep_cfg, rxStep_txpos, hrxin, hcfg, deliveredNext, hp.1]
    refine ⟨?_, rfl, rfl⟩
    cases hm.frameMove with
    | kept _ _ _ _ hlog | latched _ _ _ _ _ _ hlog | built _ _ _ _ _ _ _ _ _ _ hlog => exact .inl hlog
    | sent b hq hr hb _ _ _ hpos hlog => exact .inr ⟨hq, p, b, hp, hr, hb, hlog, hpos⟩

/-- Settles O34: a move of the engine ends a command with the strobe, or is silent and keeps the outcome. -/
theorem responseStrobeMarksTheEnd : Obligations.ResponseStrobeMarksTheEnd := by
  intro s t p hp h
  obtain ⟨u, hm, rfl⟩ := step_engine hp h
  simp only [rxStep_rspValid, rxStep_rspOk, rxStep_rspKind, rxStep_rspValue, rxStep_ph]
  cases hm.responseMove with
  | ended hv hq hs hk hf => exact ⟨⟨fun _ => ⟨hq, hs⟩, fun _ => hv⟩, fun _ => ⟨hk, hf⟩, fun h => by simp [hv] at h⟩
  | silent hv hq hok hkind hval =>
    refine ⟨⟨fun h => by simp [hv] at h, fun ⟨hidle, hs⟩ => ?_⟩, fun h => by simp [hv] at h, fun _ => ⟨hok, hkind, hval⟩⟩
    obtain ⟨hsi, hnv⟩ := hq hidle
    rcases hs with hs | hs
    · exact absurd hsi hs
    · exact absurd hs (by simpa using hnv)

end
end

section
/-! PROOFS. One cycle written out (spec/10_state.md R15): what it runs, what a reset leaves, what the receive step of the cycle adds,
and that a busy engine does not look at the presented word (R29, R192). -/

namespace Sys2Proof.Machine

open Safety Words

variable {s : State}

/-! ### The cycle -/

/-- A cycle without reset is the engine step and then the receive step. -/
theorem step_of_engineNext {p : Pins} (h : EngineNext s p) :
    step s = andThen (engineStep (sample p (advance s))) (rxStep p.rxValid p.rxData) := by
  simp [step, h.1, runEvent, runCycle, h.2]

theorem advance_of_inputs {e : Event} {rest : List Event} (h : s.inputs = e :: rest) :
    advance s = { s with inputs := rest, clock := s.clock + 1 } := by
  simp [advance, h]

theorem step_cycle {p : Pins} {rest : List Event} (h : s.inputs = .cycle p :: rest) (hp : p.rst = false) :
    step s = andThen (engineStep { s with inputs := rest, clock := s.clock + 1, pins := p }) (rxStep p.rxValid p.rxData) := by
  rw [step_of_engineNext ⟨nextEvent_cons h, hp⟩, advance_of_inputs h]
  rfl

/-- A cycle with `rst = 1` leaves the reset state, the traces and what belongs to the environment aside (R32, R187). -/
theorem step_reset {p : Pins} {rest : List Event} (h : s.inputs = .cycle p :: rest) (hp : p.rst = true) :
    step s = .next { State.resetWith s.cfg rest with
      txlog := s.txlog, rxin := s.rxin ++ (if p.rxValid then [p.rxData] else []), pins := p, clock := s.clock + 1 } := by
  cases hv : p.rxValid <;> simp [step, nextEvent_cons h, runEvent, runCycle, hp, hv, advance_of_inputs h, resetBlock]

theorem step_line {bytes : List Byte} {rest : List Event} (h : s.inputs = .line bytes :: rest) :
    step s = runLine bytes { s with inputs := rest, clock := s.clock + 1 } := by
  simp [step, nextEvent_cons h, runEvent, advance_of_inputs h]

/-- A cycle in which a word is presented that selects a row runs that instruction (R29, R62). -/
theorem step_presented {p : Pins} {rest : List Event} {i : Instr} (h : s.inputs = .cycle p :: rest) (hp : p.rst = false)
    (hv : p.cmdValid = true) (hd : decodeCommand p.cmdWord = .ok i) :
    step s = andThen (exec i { s with inputs := rest, clock := s.clock + 1, pins := p }) (rxStep p.rxValid p.rxData) := by
  rw [step_cycle h hp]
  simp [engineStep, hv, hd]

/-- The bytes of a frame on the line run the row they spell (R16). -/
theorem step_frame {bytes : List Byte} {rest : List Event} {i : Instr} (h : s.inputs = .line bytes :: rest)
    (hd : decodeFrame s.cfg bytes = .ok i) : step s = exec i { s with inputs := rest, clock := s.clock + 1 } := by
  rw [step_line h]
  simp [runLine, hd]

theorem andThen_id (r : Result) : andThen r (fun t => t) = r := by cases r <;> rfl

/-! ### The receive step -/

theorem stored_nil (m : Memory) (i : Nat) : Stored m m i [] := fun k => by
  by_cases h : k < i <;> simp [h]

theorem stored_write (m : Memory) (i : Nat) (b : Byte) : Stored (Memory.write m i b) m i [b] := fun k => by
  rw [Memory.read_write]
  rcases Nat.lt_trichotomy k i with h | rfl | h
  · simp [h, h.ne]
  · simp
  · have h1 : ¬ k < i := by omega
    have h2 : ¬ k < i + 1 := by omega
    simp [h1, h2, h.ne']

@[simp] theorem delivered_singleton (p : Pins) : delivered [p] = if p.rxValid then [p.rxData] else [] := by
  cases h : p.rxValid <;> simp [delivered, h]

/-- With the receiver off the receive step shows in `RXIN` only (spec/42_capture.md R106). -/
theorem rxStep_off (h : s.rxEn = false) (p : Pins) :
    rxStep p.rxValid p.rxData s = { s with rxin := s.rxin ++ delivered [p] } := by
  cases hv : p.rxValid with
  | false => simp [hv]
  | true => simp [hv, rxStep_true, capture, hear, h]

/-- With the receiver on and room in the buffer a byte that arrives is stored at `WR` (R105). -/
theorem rxStep_room (hr : s.rxEn = true) (hw : s.wr < s.cfg.capDepth) (b : Byte) :
    rxStep true b s = { s with cap := Memory.write s.cap s.wr b, wr := s.wr + 1, rxin := s.rxin ++ [b] } := by
  simp [rxStep_true, capture, captureRoom, hear, hr, hw]

theorem rxStep_full (hr : s.rxEn = true) (hw : s.cfg.capDepth ≤ s.wr) (b : Byte) :
    rxStep true b s = { s with ovf := true, rxin := s.rxin ++ [b] } := by
  simp [rxStep_true, capture, captureRoom, hear, hr, hw]

/-- The receive step of a cycle, in every case: what is caught is stored from `WR` on, and a byte without room sets `OVF` (R105). -/
theorem rxStep_stored (s : State) (p : Pins) : ∃ m, Stored m s.cap s.wr (caught s [p]) ∧
    rxStep p.rxValid p.rxData s = { s with
      cap := m, wr := s.wr + (caught s [p]).length, ovf := s.ovf || (s.rxEn && p.rxValid && decide (s.cfg.capDepth ≤ s.wr)),
      rxin := s.rxin ++ delivered [p] } := by
  rcases Bool.eq_false_or_eq_true s.rxEn with hr | hr
  case inr => exact ⟨s.cap, by simpa [caught, hr] using stored_nil _ _, by rw [rxStep_off hr]; simp [caught, hr]⟩
  case inl =>
    cases hv : p.rxValid with
    | false => exact ⟨s.cap, by simpa [caught, hr, hv] using stored_nil _ _, by simp [caught, hv]⟩
    | true =>
      by_cases hw : s.wr < s.cfg.capDepth
      · obtain ⟨n, hn⟩ : ∃ n, s.cfg.capDepth - s.wr = n + 1 := ⟨_, (Nat.succ_pred_eq_of_pos (Nat.sub_pos_of_lt hw)).symm⟩
        refine ⟨Memory.write s.cap s.wr p.rxData, ?_, ?_⟩
        · simpa [caught, hr, hv, hn] using stored_write _ _ _
        · rw [rxStep_room hr hw]
          simp [caught, hr, hv, hn, hw]
      · have hz : s.cfg.capDepth - s.wr = 0 := by omega
        refine ⟨s.cap, by simpa [caught, hr, hv, hz] using stored_nil _ _, ?_⟩
        rw [rxStep_full hr (by omega)]
        simp [caught, hr, hv, hz, Nat.le_of_not_lt hw]

/-- The receive step after an engine step that left the buffer and the receiver as they were in `s`. -/
theorem rxStep_after {u : State} {p : Pins} (hcap : u.cap = s.cap) (hwr : u.wr = s.wr) (hovf : u.ovf = s.ovf) (hrx : u.rxEn = s.rxEn)
    (hcfg : u.cfg = s.cfg) (hrxin : u.rxin = s.rxin) : ∃ m, Stored m s.cap s.wr (caught s [p]) ∧
      rxStep p.rxValid p.rxData u = { u with
        cap := m, wr := s.wr + (caught s [p]).length, ovf := s.ovf || (s.rxEn && p.rxValid && decide (s.cfg.capDepth ≤ s.wr)),
        rxin := s.rxin ++ delivered [p] } := by
  have hc : caught u [p] = caught s [p] := by simp only [caught, hrx, hcfg, hwr]
  simpa only [hc, hcap, hwr, hovf, hrx, hcfg, hrxin] using rxStep_stored u p

/-! ### The presented word makes no difference to a busy engine -/

theorem andThen_orFault {α : Type} (x : Except Fault α) (f : α → Result) (g : State → State) :
    andThen (orFault x f) g = orFault x fun a => andThen (f a) g := by
  cases x <;> rfl

@[simp] theorem readByte_sample (buf : Buffer) (q : Pins) (i : Nat) : readByte buf (sample q s) i = readByte buf s i := by
  cases buf <;> rfl

@[simp] theorem readBytes_sample (buf : Buffer) (q : Pins) (i n : Nat) : readBytes buf (sample q s) i n = readBytes buf s i n := by
  induction n generalizing i with
  | zero => rfl
  | succ n ih => simp [readBytes, ih]

theorem swtxA_sample (q : Pins) : swtxA (sample q s) = andThen (swtxA s) (sample q) := by
  rw [swtxA, swtxA, andThen_orFault]
  rfl

theorem swrxA_sample (q : Pins) : swrxA (sample q s) = andThen (swrxA s) (sample q) := by
  rw [swrxA, swrxA, andThen_orFault]
  rfl

theorem swtxB_sample (q : Pins) : swtxB (sample q s) = andThen (swtxB s) (sample q) := by
  simp only [swtxB, andThen_next, apply_ite (sample q)]
  rfl

theorem swrxB_sample (q : Pins) : swrxB (sample q s) = andThen (swrxB s) (sample q) := by
  simp only [swrxB, andThen_next, apply_ite (sample q)]
  rfl

theorem sendStep_sample {q : Pins} (h : q.txReady = s.pins.txReady) :
    sendStep (sample q s) = andThen (sendStep s) (sample q) := by
  unfold sendStep
  rw [sample_pins, h]
  split
  · rw [andThen_orFault, readByte_sample]
    simp only [andThen_next, apply_ite (sample q)]
    rfl
  · rfl

theorem classify_sample (q : Pins) (b : Byte) : classify b (sample q s) = andThen (classify b s) (sample q) := by
  cases hf : notFrameStart s.cnt b with
  | true => simp [classify, hf]
  | false =>
    cases hd : duplicateSync s.cnt b with
    | true => simp [classify, hf, hd]
    | false =>
      by_cases hn : s.cnt < s.cfg.capDepth
      · simp [classify, writeAsm, bufferSize, hf, hd, hn]; rfl
      · simp [classify, writeAsm, bufferSize, hf, hd, hn]

theorem readStep_sample (q : Pins) : readStep (sample q s) = andThen (readStep s) (sample q) := by
  by_cases hr : s.rd < s.wr
  · simp only [readStep, byteAvailable, sample_rd, sample_wr, hr, decide_true, if_true, andThen_orFault, readByte_sample]
    exact congrArg _ (funext fun b => classify_sample (s := { s with rd := s.rd + 1, waitc := 0 }) q b)
  · cases ho : s.ovf with
    | true => simp [readStep, byteAvailable, hr, ho]; rfl
    | false => by_cases hw : s.waitc = s.cfg.waitBudget <;> simp [readStep, byteAvailable, budgetSpent, hr, ho, hw] <;> rfl

theorem checkStep_sample (q : Pins) : checkStep (sample q s) = andThen (checkStep s) (sample q) := by
  have hv : registerValue (sample q s) = registerValue s := by simp [registerValue]
  unfold checkStep getRegFinish
  simp only [andThen_orFault, readBytes_sample, readByte_sample, sample_expect, sample_cur, hv]
  refine congrArg _ (funext fun l => ?_)
  split
  · rw [andThen_orFault]
    refine congrArg _ (funext fun len => ?_)
    split
    · simp only [andThen_orFault]
      rfl
    · rfl
  · rfl

/-- Of the sampled pins a busy engine looks at `tx_ready` only. -/
theorem engineStep_sample_busy {q : Pins} (h : s.ph ≠ .idle) (hq : q.txReady = s.pins.txReady) :
    engineStep (sample q s) = andThen (engineStep s) (sample q) := by
  cases hp : s.ph with
  | idle => exact absurd hp h
  | swtxA => rw [engineStep_swtxA hp, engineStep_swtxA (s := sample q s) hp]; exact swtxA_sample (s := clearStrobe s) q
  | swtxB => rw [engineStep_swtxB hp, engineStep_swtxB (s := sample q s) hp]; exact swtxB_sample (s := clearStrobe s) q
  | send => rw [engineStep_send hp, engineStep_send (s := sample q s) hp]; exact sendStep_sample (s := clearStrobe s) hq
  | swrxA => rw [engineStep_swrxA hp, engineStep_swrxA (s := sample q s) hp]; exact swrxA_sample (s := clearStrobe s) q
  | swrxB => rw [engineStep_swrxB hp, engineStep_swrxB (s := sample q s) hp]; exact swrxB_sample (s := clearStrobe s) q
  | read => rw [engineStep_read hp, engineStep_read (s := sample q s) hp]; exact readStep_sample (s := clearStrobe s) q
  | check => rw [engineStep_check hp, engineStep_check (s := sample q s) hp]; exact checkStep_sample (s := clearStrobe s) q

/-! ### The cycles whose receive step matters -/

/-- The second step of a switch to receive empties the buffer and turns the receiver on. -/
theorem engineStep_swrxB_opens (h : s.ph = .swrxB) :
    ∃ u, engineStep s = .next u ∧ u.rxEn = true ∧ u.wr = 0 ∧ u.cfg = s.cfg := by
  refine ⟨_, engineStep_swrxB h, ?_⟩
  split <;> exact ⟨rfl, rfl, rfl⟩

/-- After the first step of a switch to transmit the receiver is off and the buffer as it was. -/
theorem engineStep_swtxA_closes {u : State} (h : s.ph = .swtxA) (hu : engineStep s = .next u) :
    u.rxEn = false ∧ u.wr = s.wr ∧ u.cap = s.cap ∧ u.ovf = s.ovf := by
  obtain ⟨v, _, rfl⟩ := swtxA_eq_next.1 (engineStep_swtxA h ▸ hu)
  exact ⟨rfl, rfl, rfl, rfl⟩

/-- An empty poll within the budget counts and does nothing else (spec/43_framer.md R116). -/
theorem engineStep_poll (h : s.ph = .read) (hr : s.rd = s.wr) (ho : s.ovf = false) (hw : s.waitc < s.cfg.waitBudget) :
    engineStep s = .next { clearStrobe s with waitc := s.waitc + 1 } :=
  (engineStep_read h).trans (readStep_eq_next.2 (.inr (.inr (.inr ⟨hr.not_lt, ho, hw.ne, rfl⟩))))

theorem engineStep_quiet (h : s.ph = .idle) (hv : s.pins.cmdValid = false) : engineStep s = .next (clearStrobe s) := by
  simp [engineStep, hv, engineCycle, h]

end Sys2Proof.Machine

section
open Sys2Proof Machine Safety Words

/-- Settles O8: every command's meaning in a busy phase is the phase step, which looks at no pin but `tx_ready`. -/
theorem busyBlockIgnoresTheWord : Obligations.BusyBlockIgnoresTheWord := fun _ h =>
  ⟨fun _ _ hi hj => (exec_busy hi h).trans (exec_busy hj h).symm, fun _ _ => engineStep_sample_busy h rfl⟩

/-- Settles O16: the event at the head of the trace is what the step runs, and `withFetchWord` puts it there. -/
theorem stepRunsTheDecodedInstruction : Obligations.StepRunsTheDecodedInstruction := by
  refine ⟨fun _ _ _ _ => step_presented, fun _ _ _ _ => step_frame, fun s nbits w c i hc hd => ?_, fun s nbits w bytes i hb hd => ?_⟩
  · have h := step_presented (s := placeImage (.command c) s) rfl rfl rfl hd
    rw [State.withFetchWord, hc, h]
    exact andThen_id _
  · rw [State.withFetchWord, hb]
    exact step_frame (s := placeImage (.line bytes) s) rfl hd

/-- Settles O17: the cycle function, and what the receive step finds after the engine step of a switch and of an empty poll. -/
theorem cycleIsEngineThenReceive : Obligations.CycleIsEngineThenReceive := by
  intro s p rest h
  refine ⟨fun hp => ⟨_, step_reset h hp, rfl⟩, step_cycle h, fun hp hv hph hdepth => ?_, fun hp hph t ht => ?_,
    fun hp hv hph hr ho hw hen hroom => ?_⟩
  all_goals have hs := step_of_engineNext ⟨nextEvent_cons h, hp⟩
  · obtain ⟨u, hu, hen, hwr, hcfg⟩ := engineStep_swrxB_opens (s := sample p (advance s)) hph
    rw [hs, hu, andThen_next, hv, rxStep_room hen (by rwa [hwr, hcfg])]
    exact ⟨_, rfl, by simp [hwr], by simp [hwr]⟩
  · rw [hs, andThen_eq_next] at ht
    obtain ⟨u, hu, rfl⟩ := ht
    obtain ⟨hen, hwr, hcap, hovf⟩ := engineStep_swtxA_closes (s := sample p (advance s)) hph hu
    rw [rxStep_off hen]
    exact ⟨hwr, hcap, hovf⟩
  · rw [hs, engineStep_poll (s := sample p (advance s)) hph hr ho hw, andThen_next, hv, rxStep_room (by exact hen) (by exact hroom)]
    exact ⟨_, rfl, rfl, rfl, rfl, rfl⟩

/-- Settles O19: the state that a reset cycle leaves, field by field. -/
theorem resetValues : Obligations.ResetValues := by
  intro s p rest h hp
  refine ⟨_, step_reset h hp, ?_⟩
  simp [Memory.read]

/-- Settles O60: the idle engine clears the strobe; the receive step of the cycle does the rest. -/
theorem idleCycleOnlyClearsTheStrobe : Obligations.IdleCycleOnlyClearsTheStrobe := by
  intro s hs
  refine ⟨engineStep_quiet hs, fun p hp hv => ?_⟩
  obtain ⟨m, hm, hrx⟩ := rxStep_after (s := s) (u := clearStrobe (sample p (advance s))) (p := p) (by simp) (by simp) (by simp)
    (by simp) (by simp) (by simp)
  refine ⟨m, hm, ?_⟩
  rw [step_of_engineNext hp, engineStep_quiet (s := sample p (advance s)) hs hv, andThen_next, hrx]
  simp only [clearStrobe, sample, advance]

end
end

section
/-! PROOFS. The commands by their words (spec/30_encoding.md R60, R62, R65): the encoder lays out the words of the spec, the decoder reads
them back, and `BuildFrame` builds the frames of R73 to R75. -/

namespace Sys2Proof.Machine

open Words

/-- A word written with its high byte whole is the word laid out field by field (R60). -/
theorem wordBytes_eq {op : BitVec 4} {all : Bool} {hi : Byte} (h : op ++ BitVec.ofBool all ++ 0#3 = hi) (id addr : Byte)
    (data : Word16) : (hi ++ id ++ addr ++ data : Word40) = commandWord op all id addr data := by
  subst h
  rfl

theorem zext16_eq_append (b : Byte) : zext16 b = 0#8 ++ b :=
  BitVec.eq_of_toNat_eq (by rw [zext16_toNat, BitVec.toNat_append]; simp)

theorem wordBytes_zext16_eq {op : BitVec 4} {all : Bool} {hi : Byte} (h : op ++ BitVec.ofBool all ++ 0#3 = hi) (id addr val : Byte) :
    (hi ++ id ++ addr ++ 0#8 ++ val : Word40) = commandWord op all id addr (zext16 val) := by
  rw [← wordBytes_eq h, zext16_eq_append]
  exact BitVec.append_assoc

/-- The word of a command that has an id and no other operand. -/
theorem wordBytes_zero_eq {op : BitVec 4} {all : Bool} {hi : Byte} (h : op ++ BitVec.ofBool all ++ 0#3 = hi) (id : Byte) :
    (hi ++ id ++ 0#24 : Word40) = commandWord op all id 0 0 := by
  rw [← wordBytes_eq h]
  exact (BitVec.append_assoc (x₁ := hi ++ id) (x₂ := 0#8) (x₃ := 0#16)).symm

/-- The encoder lays the fields of a command out where the spec says (R60, R62). -/
theorem encode_eq_wordOf (p : Params) {i : Instr} (h : isCommand i = true) : encode p i = .command (wordOf i) := by
  cases i with
  | init | swAllTx | getLastError => rfl
  | swTx id => exact congrArg Image.command (wordBytes_zero_eq (hi := 0x20#8) (by decide) id).symm
  | swRx id => exact congrArg Image.command (wordBytes_zero_eq (hi := 0x30#8) (by decide) id).symm
  | buildRead id addr len => exact congrArg Image.command (wordBytes_zext16_eq (hi := 0x50#8) (by decide) id addr len).symm
  | buildWrite all id addr val =>
    cases all
    · exact congrArg Image.command (wordBytes_zext16_eq (hi := 0x60#8) (by decide) id addr val).symm
    · exact congrArg Image.command (wordBytes_zext16_eq (hi := 0x68#8) (by decide) id addr val).symm
  | buildWrite2 all id addr val =>
    cases all
    · exact congrArg Image.command (wordBytes_eq (hi := 0x70#8) (by decide) id addr val).symm
    · exact congrArg Image.command (wordBytes_eq (hi := 0x78#8) (by decide) id addr val).symm
  | readPacket n =>
    have h0 : (0x80#8 ++ 0#24 : BitVec 32) = 0x80#8 ++ 0#8 ++ 0#8 ++ 0#8 := by decide
    exact congrArg Image.command ((wordBytes_zext16_eq (hi := 0x80#8) (by decide) 0 0 n).symm.trans (congrArg (· ++ n) h0.symm))
  | getReg id addr width => exact congrArg Image.command (wordBytes_zext16_eq (hi := 0x90#8) (by decide) id addr width).symm
  | setReg id addr val => exact congrArg Image.command (wordBytes_zext16_eq (hi := 0xA0#8) (by decide) id addr val).symm
  | setReg2 id addr val => exact congrArg Image.command (wordBytes_eq (hi := 0xB0#8) (by decide) id addr val).symm
  | _ => exact absurd h Bool.false_ne_true

/-- The decoder reads back every command from its encoding (R62). -/
theorem decodeCommand_of_encode {p : Params} {i : Instr} {w : Word40} (h : encode p i = .command w) : decodeCommand w = .ok i := by
  cases i <;> simp only [encode, Image.command.injEq, reduceCtorEq] at h <;> subst h <;>
    simp [decodeCommand, mustBeZero, opInit, opSwTx, opSwRx, opSwAllTx, opBuildRead, opBuildWrite, opBuildWrite2, opReadPacket,
      opGetReg, opSetReg, opSetReg2, opGetLastError]

theorem decodeCommand_wordOf {i : Instr} (h : isCommand i = true) : decodeCommand (wordOf i) = .ok i :=
  decodeCommand_of_encode (encode_eq_wordOf (Config.defaults 1) h)

theorem wellFormed_iff_inRange {p : Params} {i : Instr} (h : isCommand i = true) : wellFormed p i = true ↔ InRange p i := by
  cases i <;> simp [wellFormed, InRange, idLegal, widthLegal, countLegal, isCommand] at h ⊢

theorem request8_eq (id inst a b : Byte) : frameBytes id inst [a, b] = request8 id inst a b := by
  simp [frameBytes, request8, Config.sync, csum, sum8, BitVec.ofNat_add, BitVec.add_assoc]

theorem request9_eq (id inst a lo hi : Byte) : frameBytes id inst [a, lo, hi] = request9 id inst a lo hi := by
  simp [frameBytes, request9, Config.sync, csum, sum8, BitVec.ofNat_add, BitVec.add_assoc]

end Sys2Proof.Machine
end

section
/-! PROOFS. A frame-sending command from its acceptance to the switch back (spec/10_state.md R19, spec/44_serializer.md R133 to R142): one
equation per cycle, and an induction over the cycles of `SEND`. -/

namespace Sys2Proof.Machine

open Safety Words

variable {s t u : State}

/-! ### Runs -/

theorem runSteps_succ_of_step {k : Nat} (h : step s = .next u) : runSteps (k + 1) s = runSteps k u := by
  rw [runSteps, h]

theorem runSteps_one (h : step s = .next u) : runSteps 1 s = .next u := runSteps_succ_of_step h

theorem runSteps_add {j k : Nat} (h : runSteps j s = .next u) : runSteps (j + k) s = runSteps k u := by
  induction j generalizing s with
  | zero => cases h; rw [Nat.zero_add]
  | succ j ih =>
    obtain ⟨v, hv, h⟩ := runSteps_succ_eq_next.1 h
    rw [Nat.succ_add, runSteps_succ_of_step hv, ih h]

theorem delivered_append (l k : List Pins) : delivered (l ++ k) = delivered l ++ delivered k := by
  simp [delivered]

theorem delivered_cons (p : Pins) (l : List Pins) : delivered (p :: l) = delivered [p] ++ delivered l :=
  delivered_append [p] l

/-! ### The acceptance -/

theorem stored_writeList (m : Memory) (l : List Byte) : Stored (Memory.writeList m 0 l) m 0 l := fun k => by
  rw [Memory.read_writeList]
  by_cases h : k < l.length <;> simp [h]

/-- A frame-sending command loads its frame and goes to the switch to transmit (R134, R136 to R138, R148, R153, R154). -/
theorem acceptAction_of_frameOf {i : Instr} (hf : frameOf s.cfg i ≠ []) :
    acceptAction i s = latch (wordOf i) .swtxA (loadFrame (frameOf s.cfg i) s) := by
  have hw {w : Word40} (hc : isCommand i = true) (h : encode s.cfg i = .command w) : w = wordOf i :=
    Image.command.inj (h.symm.trans (encode_eq_wordOf s.cfg hc))
  cases i with
  | buildRead | buildWrite | getReg | setReg =>
    simp only [acceptAction, acceptSend, buildFrame, request8_eq, hw rfl rfl, frameOf]
  | buildWrite2 | setReg2 =>
    simp only [acceptAction, acceptSend, buildFrame, request9_eq, hw rfl rfl, frameOf]
    rfl
  | _ => exact absurd rfl hf

theorem isCommand_of_frameOf {p : Params} {i : Instr} (hf : frameOf p i ≠ []) : isCommand i = true := by
  cases i <;> first | rfl | exact absurd rfl hf

theorem frameOf_length {p : Params} {i : Instr} (hf : frameOf p i ≠ []) : (frameOf p i).length = 8 ∨ (frameOf p i).length = 9 := by
  cases i <;> first | exact .inl rfl | exact .inr rfl | exact absurd rfl hf

/-- The acceptance of a frame-sending command, as an engine step. -/
theorem engineStep_acceptFrame {i : Instr} (hs : s.ph = .idle) (hf : frameOf s.cfg i ≠ []) (hr : InRange s.cfg i)
    (hv : s.pins.cmdValid = true) (hw : s.pins.cmdWord = wordOf i) :
    engineStep s = .next (latch (wordOf i) .swtxA (loadFrame (frameOf s.cfg i) (clearStrobe s))) := by
  have hc := isCommand_of_frameOf hf
  have hd : decodeCommand s.pins.cmdWord = .ok i := hw ▸ decodeCommand_wordOf hc
  have he : engineStep s = exec i s := by simp [engineStep, hv, hd]
  rw [he, exec_idle hc hs, if_pos ((wellFormed_iff_inRange hc).2 hr), acceptAction_of_frameOf (by exact hf)]
  rfl

/-- The cycle in which a frame-sending command is accepted; a byte of that cycle may still be caught. -/
theorem step_acceptFrame {i : Instr} {p : Pins} {rest : List Event} (hs : s.ph = .idle) (hf : frameOf s.cfg i ≠ [])
    (hr : InRange s.cfg i) (h : s.inputs = .cycle p :: rest) (hp : p.rst = false) (hv : p.cmdValid = true)
    (hw : p.cmdWord = wordOf i) : ∃ m, Stored m s.cap s.wr (caught s [p]) ∧
      step s = .next { s with
        cur := wordOf i, txbuf := Memory.writeList s.txbuf 0 (frameOf s.cfg i), txlen := (frameOf s.cfg i).length, txpos := 0,
        ph := .swtxA, rspValid := false, cap := m, wr := s.wr + (caught s [p]).length,
        ovf := s.ovf || (s.rxEn && p.rxValid && decide (s.cfg.capDepth ≤ s.wr)), rxin := s.rxin ++ delivered [p],
        inputs := rest, pins := p, clock := s.clock + 1 } := by
  obtain ⟨m, hm, hrx⟩ := rxStep_after (s := s) (p := p)
    (u := latch (wordOf i) .swtxA (loadFrame (frameOf s.cfg i) (clearStrobe { s with inputs := rest, clock := s.clock + 1, pins := p })))
    (by simp) (by simp) (by simp) (by simp) (by simp) (by simp)
  refine ⟨m, hm, ?_⟩
  rw [step_cycle h hp, engineStep_acceptFrame (by exact hs) (by exact hf) (by exact hr) (by exact hv) (by exact hw), andThen_next,
    hrx]
  simp only [latch, loadFrame, clearStrobe]

/-! ### The cycles of the switches -/

section
variable {p : Pins} {rest : List Event} (h : s.inputs = .cycle p :: rest) (hp : p.rst = false)
include h hp

theorem step_leaveReceive {v : Byte} (hs : s.ph = .swtxA) (hv : selFor .transmit s = .ok v) :
    step s = .next { s with
      rxEn := false, auxSel := v, ph := .swtxB, rspValid := false, rxin := s.rxin ++ delivered [p], inputs := rest, pins := p,
      clock := s.clock + 1 } := by
  rw [step_cycle h hp, engineStep_swtxA (by exact hs), swtxA_eq_next.2 ⟨v, by exact hv, rfl⟩, andThen_next, rxStep_off rfl]
  rfl

theorem step_startSend (hs : s.ph = .swtxB) (ho : switchOnly s.cur = false) (hr : s.rxEn = false) :
    step s = .next { s with
      txEn := true, dir := .transmit, wr := 0, rd := 0, ovf := false, ph := .send, rspValid := false,
      rxin := s.rxin ++ delivered [p], inputs := rest, pins := p, clock := s.clock + 1 } := by
  rw [step_cycle h hp, engineStep_swtxB (by exact hs), swtxB_eq_next.2 (.inr ⟨by exact ho, rfl⟩), andThen_next,
    rxStep_off (by exact hr)]
  rfl

theorem step_leaveTransmit {v : Byte} (hs : s.ph = .swrxA) (hv : selFor .receive s = .ok v) (hr : s.rxEn = false) :
    step s = .next { s with
      txEn := false, auxSel := v, ph := .swrxB, rspValid := false, rxin := s.rxin ++ delivered [p], inputs := rest, pins := p,
      clock := s.clock + 1 } := by
  rw [step_cycle h hp, engineStep_swrxA (by exact hs), swrxA_eq_next.2 ⟨v, by exact hv, rfl⟩, andThen_next,
    rxStep_off (by exact hr)]
  rfl

/-- The receiver is on in the cycle of `SWRX_B`, so a byte of that cycle is the first in the buffer (R15, R98). -/
theorem step_enterReceive (hs : s.ph = .swrxB) (ho : fieldOp s.cur ≠ opGetReg) (hdepth : 0 < s.cfg.capDepth) :
    ∃ m, Stored m s.cap 0 (delivered [p]) ∧ step s = .next (succeed 0 { s with
      rxEn := true, dir := .receive, wr := if p.rxValid then 1 else 0, rd := 0, ovf := false, cap := m,
      rxin := s.rxin ++ delivered [p], inputs := rest, pins := p, clock := s.clock + 1 }) := by
  rw [step_cycle h hp, engineStep_swrxB (by exact hs), swrxB_eq_next.2 (.inr ⟨by exact ho, rfl⟩), andThen_next]
  cases hv : p.rxValid with
  | false => exact ⟨s.cap, by simpa [hv] using stored_nil _ _, by simp [hv, emptyCapture, clearStrobe, succeed, complete]⟩
  | true =>
    refine ⟨Memory.write s.cap 0 p.rxData, by simpa [hv] using stored_write _ _ _, ?_⟩
    rw [rxStep_room rfl (by exact hdepth)]
    simp [hv]
    rfl

end

/-! ### The cycles of `SEND` -/

/-- The block in `SEND` after some cycles: the bytes `l` were handed over, the bytes `heard` arrived (and were lost). -/
def sendProgress (s : State) (l heard : List Byte) (rest : List Event) (q : Pins) (n : Nat) : State :=
  { s with txlog := s.txlog ++ l, txpos := s.txpos + l.length, rspValid := false, rxin := s.rxin ++ heard, inputs := rest,
           pins := q, clock := s.clock + n }

theorem sendProgress_trans (l l' heard heard' : List Byte) (rest rest' : List Event) (q q' : Pins) (n n' : Nat) :
    sendProgress (sendProgress s l heard rest q n) l' heard' rest' q' n' =
      sendProgress s (l ++ l') (heard ++ heard') rest' q' (n + n') := by
  simp [sendProgress, Nat.add_assoc]

/-- What follows the last byte: with `all = 1` the command ends, else the switch to receive begins (R140, R142). -/
def afterLastByte (s : State) : State := if fieldAll s.cur then succeed 0 s else { s with ph := .swrxA }

section
variable {p : Pins} {rest : List Event} (hs : s.ph = .send) (hrx : s.rxEn = false) (h : s.inputs = .cycle p :: rest)
  (hp : p.rst = false)
include hs hrx h hp

theorem step_stall (hr : p.txReady = false) : step s = .next (sendProgress s [] (delivered [p]) rest p 1) := by
  rw [step_cycle h hp, engineStep_send (by exact hs), sendStep_eq_next.2 (.inl ⟨by exact hr, rfl⟩), andThen_next,
    rxStep_off (by exact hrx)]
  simp [sendProgress, clearStrobe]

variable {b : Byte} (hr : p.txReady = true) (hb : Memory.read s.txbuf s.txpos = some b) (hpos : s.txpos < Config.txDepth)
include hr hb hpos

theorem step_sendMore (hl : s.txpos + 1 ≠ s.txlen) : step s = .next (sendProgress s [b] (delivered [p]) rest p 1) := by
  rw [step_cycle h hp, engineStep_send (by exact hs),
    sendStep_eq_next.2 (.inr ⟨by exact hr, b, readByte_of_written (by exact hpos) (by exact hb), .inl ⟨by exact hl, rfl⟩⟩),
    andThen_next, rxStep_off (by exact hrx)]
  rfl

theorem step_sendLast (hl : s.txpos + 1 = s.txlen) :
    step s = .next (afterLastByte (sendProgress s [b] (delivered [p]) rest p 1)) := by
  have hread : readByte .txbuf (clearStrobe { s with inputs := rest, clock := s.clock + 1, pins := p }) s.txpos = .ok b :=
    readByte_of_written (by exact hpos) (by exact hb)
  rw [step_cycle h hp, engineStep_send (by exact hs)]
  rcases Bool.eq_false_or_eq_true (fieldAll s.cur) with ha | ha
  · rw [sendStep_eq_next.2 (.inr ⟨by exact hr, b, hread, .inr (.inl ⟨by exact hl, by exact ha, rfl⟩)⟩), andThen_next,
      rxStep_off (by exact hrx), afterLastByte, if_pos (by exact ha)]
    rfl
  · rw [sendStep_eq_next.2 (.inr ⟨by exact hr, b, hread, .inr (.inr ⟨by exact hl, by exact ha, rfl⟩)⟩), andThen_next,
      rxStep_off (by exact hrx), afterLastByte, if_neg (by simp [sendProgress, ha])]
    rfl

end

/-- Where the last cycle is ready, one cycle is. -/
theorem readyCount_pos {mid : List Pins} (h : mid.getLast?.map (·.txReady) = some true) : 0 < readyCount mid := by
  obtain ⟨p, hp, hr⟩ := Option.map_eq_some_iff.1 h
  exact List.length_pos_of_mem (List.mem_filter.2 ⟨List.mem_of_getLast? hp, hr⟩)

/-- The cycles of `SEND`, whatever the stalls: where the transport is ready as often as there are bytes to send, the last time in the
last cycle, exactly these bytes are handed over, in their order (R140). -/
theorem runSteps_send {mid : List Pins} {l : List Byte} {rest : List Event} (hs : s.ph = .send) (hrx : s.rxEn = false)
    (h : s.inputs = cycles mid ++ rest) (hreset : NoReset mid) (hn : readyCount mid = l.length)
    (hlast : mid.getLast?.map (·.txReady) = some true) (hlen : s.txpos + l.length = s.txlen) (hdepth : s.txlen ≤ Config.txDepth)
    (hbuf : ∀ k < l.length, Memory.read s.txbuf (s.txpos + k) = l[k]?) :
    ∃ q, runSteps mid.length s = .next (afterLastByte (sendProgress s l (delivered mid) rest q mid.length)) := by
  induction mid generalizing s l with
  | nil => simp at hlast
  | cons p mid ih =>
    have hp : p.rst = false := hreset p List.mem_cons_self
    have hreset' : NoReset mid := fun q hq => hreset q (List.mem_cons_of_mem _ hq)
    rcases Bool.eq_false_or_eq_true p.txReady with hr | hr
    · -- a ready cycle: the next byte is handed over
      obtain _ | ⟨b, l⟩ := l
      · simp [readyCount, hr] at hn
      have hn' : readyCount mid = l.length := by simpa [readyCount, hr] using hn
      have hb : Memory.read s.txbuf s.txpos = some b := hbuf 0 (by simp)
      simp only [List.length_cons] at hlen
      obtain _ | ⟨p', mid⟩ := mid
      · obtain rfl : l = [] := List.length_eq_zero_iff.1 hn'.symm
        exact ⟨p, runSteps_one (step_sendLast hs hrx h hp hr hb (by omega) (by simpa using hlen))⟩
      · have hpos := readyCount_pos (mid := p' :: mid) (by simpa using hlast)
        have hstep := step_sendMore hs hrx h hp hr hb (by omega) (by omega)
        obtain ⟨q, hq⟩ := ih (s := sendProgress s [b] (delivered [p]) (cycles (p' :: mid) ++ rest) p 1) (l := l) hs hrx rfl hreset'
          hn' (by simpa using hlast) (by simp only [sendProgress, List.length_singleton]; omega) hdepth
          (fun k hk => by simpa [sendProgress, Nat.add_assoc, Nat.add_comm 1 k] using hbuf (k + 1) (by simpa using hk))
        rw [sendProgress_trans, ← delivered_cons, Nat.add_comm 1] at hq
        exact ⟨q, (runSteps_succ_of_step hstep).trans hq⟩
    · -- a stall: nothing is handed over, and it was not the last cycle
      have hn' : readyCount mid = l.length := by simpa [readyCount, hr] using hn
      obtain _ | ⟨p', mid⟩ := mid
      · simp [hr] at hlast
      obtain ⟨q, hq⟩ := ih (s := sendProgress s [] (delivered [p]) (cycles (p' :: mid) ++ rest) p 1) (l := l) hs hrx rfl hreset'
        hn' (by simpa using hlast) hlen hdepth hbuf
      rw [sendProgress_trans, ← delivered_cons, Nat.add_comm 1] at hq
      exact ⟨q, (runSteps_succ_of_step (step_stall hs hrx h hp hr)).trans hq⟩

end Sys2Proof.Machine
end

section
/-! PROOFS. The three stretches of a frame-sending command put together: acceptance and switch, `SEND`, switch back. -/

namespace Sys2Proof.Machine

open Safety Words

variable {s : State}

theorem noReset_of_subset {l k : List Pins} (h : NoReset k) (hl : l ⊆ k) : NoReset l := fun p hp => h p (hl hp)

/-- What the word of a frame-sending command says (R62, R65, R94): its id is legal, its `all` bit is the command's, and in `PER_DEVICE`
mode its selector without `all` is the table's entry for the id. -/
structure FrameWord (i : Instr) (id : Byte) : Prop where
  legal : id ≠ 0xFF
  id_eq : fieldId (wordOf i) = id
  all_eq : fieldAll (wordOf i) = hasAll i
  not_init : fieldOp (wordOf i) ≠ opInit
  not_swTx : fieldOp (wordOf i) ≠ opSwTx
  not_swAllTx : fieldOp (wordOf i) ≠ opSwAllTx
  getReg_iff : fieldOp (wordOf i) = opGetReg ↔ isGetReg i = true
  selector : ∀ s : State, s.cfg.dirMode = .perDevice → hasAll i = false → selectorAfter s i = (s.cfg.sel[id.toNat]?).getD 0

theorem selectorAfter_shared (hm : s.cfg.dirMode = .shared) (i : Instr) : selectorAfter s i = s.auxSel := by
  unfold selectorAfter
  rw [hm]

theorem FrameWord.of_commandWord {i : Instr} {op : BitVec 4} {all : Bool} {id addr : Byte} {data : Word16}
    (hw : wordOf i = commandWord op all id addr data) (hid : id ≠ 0xFF) (hall : all = hasAll i)
    (hop : op ≠ opInit ∧ op ≠ opSwTx ∧ op ≠ opSwAllTx) (hget : op = opGetReg ↔ isGetReg i = true)
    (hsel : ∀ s : State, s.cfg.dirMode = .perDevice → hasAll i = false → selectorAfter s i = (s.cfg.sel[id.toNat]?).getD 0) :
    FrameWord i id where
  legal := hid
  id_eq := by simp [hw]
  all_eq := by simp [hw, hall]
  not_init := by simpa [hw] using hop.1
  not_swTx := by simpa [hw] using hop.2.1
  not_swAllTx := by simpa [hw] using hop.2.2
  getReg_iff := by simpa [hw] using hget
  selector := hsel

theorem frameWord_of_frameOf {p : Params} {i : Instr} (hf : frameOf p i ≠ []) (hr : InRange p i) : ∃ id, FrameWord i id := by
  have hw {w : Word40} (hc : isCommand i = true) (h : encode p i = .command w) : wordOf i = w :=
    Image.command.inj ((encode_eq_wordOf p hc).symm.trans h)
  have noGetReg {op : BitVec 4} (hop : op ≠ opGetReg) : op = opGetReg ↔ false = true := iff_of_false hop Bool.false_ne_true
  cases i with
  | buildRead id | setReg id | setReg2 id | buildWrite all id | buildWrite2 all id =>
    refine ⟨id, .of_commandWord (hw rfl rfl) hr rfl (by decide) (noGetReg (by decide)) fun s hm ha => ?_⟩
    unfold selectorAfter
    rw [hm]
    dsimp only
    rw [ha]
    rfl
  | getReg id =>
    refine ⟨id, .of_commandWord (hw rfl rfl) hr.1 rfl (by decide) (iff_of_true rfl rfl) fun s hm ha => ?_⟩
    unfold selectorAfter
    rw [hm]
    dsimp only
    rw [ha]
    rfl
  | _ => exact absurd rfl hf

theorem FrameWord.sends {i : Instr} {id : Byte} (hw : FrameWord i id) : switchOnly (wordOf i) = false := by
  simp [switchOnly, hw.not_swTx, hw.not_swAllTx]

/-- Both switches of a frame-sending command without `all` take its selector (spec/41_direction.md R94). -/
theorem selFor_of_frameWord {i : Instr} {id : Byte} (hw : FrameWord i id) (hlegal : s.cfg.Legal) (hcur : s.cur = wordOf i)
    (hall : hasAll i = false) (d : Direction) : selFor d s = .ok (selectorAfter s i) := by
  rw [selFor_eq_ok, hcur]
  cases hm : s.cfg.dirMode with
  | shared => exact .inl ⟨rfl, (selectorAfter_shared hm i).symm⟩
  | perDevice =>
    refine .inr ⟨rfl, .inr (.inr ⟨hw.not_init, by simp [hw.not_swAllTx, hw.all_eq, hall], ?_⟩)⟩
    rw [hw.id_eq, hw.selector s hm hall, List.getElem?_eq_getElem (id_lt_sel_length hlegal hw.legal), Option.getD_some]

/-- The second switch finds the selector as the first one left it. -/
theorem selFor_after_switch {u : State} {i : Instr} {id : Byte} (hw : FrameWord i id) (hlegal : s.cfg.Legal)
    (hcur : u.cur = wordOf i) (hall : hasAll i = false) (hcfg : u.cfg = s.cfg) (haux : u.auxSel = selectorAfter s i) (d : Direction) :
    selFor d u = .ok (selectorAfter s i) := by
  rw [selFor_of_frameWord hw (hcfg ▸ hlegal) hcur hall]
  cases hm : s.cfg.dirMode with
  | shared => rw [selectorAfter_shared (hcfg ▸ hm), haux]
  | perDevice => rw [hw.selector u (hcfg ▸ hm) hall, hw.selector s hm hall, hcfg]

/-- Two cycles from the accepted command to `SEND`; bytes that arrive meanwhile are lost. -/
theorem runSteps_toTransmit {v : Byte} {p1 p2 : Pins} {rest : List Event} (hs : s.ph = .swtxA) (ho : switchOnly s.cur = false)
    (h : s.inputs = cycles [p1, p2] ++ rest) (hreset : NoReset [p1, p2]) (hv : selFor .transmit s = .ok v) :
    runSteps 2 s = .next { s with
      dir := .transmit, txEn := true, rxEn := false, auxSel := v, wr := 0, rd := 0, ovf := false, ph := .send, rspValid := false,
      rxin := s.rxin ++ delivered [p1, p2], inputs := rest, pins := p2, clock := s.clock + 2 } := by
  have h1 := step_leaveReceive (rest := .cycle p2 :: rest) h (hreset p1 (by simp)) hs hv
  have h2 := step_startSend (s := { s with
    rxEn := false, auxSel := v, ph := .swtxB, rspValid := false, rxin := s.rxin ++ delivered [p1], inputs := .cycle p2 :: rest,
    pins := p1, clock := s.clock + 1 }) rfl (hreset p2 (by simp)) rfl ho rfl
  rw [runSteps_succ_of_step h1, runSteps_one h2, delivered_cons p1 [p2], ← List.append_assoc]

/-- The block at the start of `SEND` for the command `i` accepted in `s`: its frame stands in `TXBUF` and the bus is in Transmit; `m` is
what `CAP` holds, `heard` what arrived in the three cycles. -/
def atSend (s : State) (i : Instr) (v : Byte) (m : Memory) (heard : List Byte) (rest : List Event) (q : Pins) : State :=
  { s with
    cur := wordOf i, txbuf := Memory.writeList s.txbuf 0 (frameOf s.cfg i), txlen := (frameOf s.cfg i).length, txpos := 0,
    dir := .transmit, txEn := true, rxEn := false, auxSel := v, wr := 0, rd := 0, ovf := false, ph := .send, rspValid := false,
    cap := m, rxin := s.rxin ++ heard, inputs := rest, pins := q, clock := s.clock + 3 }

/-- Three cycles from the acceptance to `SEND`, whatever arrives: the frame stands in `TXBUF`, the bus is in Transmit, and in `CAP` only a
byte of the first cycle may have been stored. -/
theorem runSteps_toSend {i : Instr} {v : Byte} {p0 p1 p2 : Pins} {rest : List Event} (hs : s.ph = .idle)
    (hf : frameOf s.cfg i ≠ []) (hr : InRange s.cfg i) (h : s.inputs = cycles [p0, p1, p2] ++ rest) (hp : Presents i p0 [p1, p2])
    (hv : selFor .transmit { s with cur := wordOf i } = .ok v) : ∃ m, Stored m s.cap s.wr (caught s [p0]) ∧
      runSteps 3 s = .next (atSend s i v m (delivered [p0, p1, p2]) rest p2) := by
  obtain ⟨hreset, hvalid, hword⟩ := hp
  obtain ⟨id, hw⟩ := frameWord_of_frameOf hf hr
  obtain ⟨m, hm, h0⟩ := step_acceptFrame (rest := cycles [p1, p2] ++ rest) hs hf hr h (hreset p0 (by simp)) hvalid hword
  refine ⟨m, hm, ?_⟩
  rw [runSteps_succ_of_step h0, atSend, delivered_cons p0 [p1, p2], ← List.append_assoc]
  exact runSteps_toTransmit rfl hw.sends rfl (noReset_of_subset hreset (by grind)) hv

/-- The block in the step that hands over the last byte of the frame of `i`, `n` cycles after the acceptance began. -/
def frameSent (s : State) (i : Instr) (v : Byte) (m : Memory) (heard : List Byte) (rest : List Event) (q : Pins) (n : Nat) : State :=
  { atSend s i v m heard rest q with
    txlog := s.txlog ++ frameOf s.cfg i, txpos := (frameOf s.cfg i).length, clock := s.clock + n }

theorem sendProgress_atSend (i : Instr) (v : Byte) (m : Memory) (heard heard' : List Byte) (rest rest' : List Event) (q q' : Pins)
    (n : Nat) : sendProgress (atSend s i v m heard rest q) (frameOf s.cfg i) heard' rest' q' n =
      frameSent s i v m (heard ++ heard') rest' q' (n + 3) := by
  simp [sendProgress, atSend, frameSent, Nat.add_assoc, Nat.add_comm 3]

/-- From the acceptance to the last byte: whatever the stalls and whatever arrives, exactly the frame is handed over. -/
theorem runSteps_sendsFrame {i : Instr} {v : Byte} {p0 p1 p2 : Pins} {mid : List Pins} {rest : List Event} (hs : s.ph = .idle)
    (hf : frameOf s.cfg i ≠ []) (hr : InRange s.cfg i) (h : s.inputs = cycles (p0 :: p1 :: p2 :: mid) ++ rest)
    (hp : Presents i p0 (p1 :: p2 :: mid)) (hv : selFor .transmit { s with cur := wordOf i } = .ok v)
    (hn : readyCount mid = (frameOf s.cfg i).length) (hlast : mid.getLast?.map (·.txReady) = some true) :
    ∃ m q, Stored m s.cap s.wr (caught s [p0]) ∧ runSteps (mid.length + 3) s =
      .next (afterLastByte (frameSent s i v m (delivered (p0 :: p1 :: p2 :: mid)) rest q (mid.length + 3))) := by
  obtain ⟨hreset, hvalid, hword⟩ := hp
  have hlen := frameOf_length hf
  obtain ⟨m, hm, h0⟩ := runSteps_toSend (p1 := p1) (p2 := p2) (rest := cycles mid ++ rest) hs hf hr
    (by rw [h]; simp [cycles]) ⟨noReset_of_subset hreset (by grind), hvalid, hword⟩ hv
  obtain ⟨q, h1⟩ := runSteps_send (s := atSend s i v m (delivered [p0, p1, p2]) (cycles mid ++ rest) p2) (mid := mid)
    (l := frameOf s.cfg i) rfl rfl rfl (noReset_of_subset hreset (by grind)) hn hlast (Nat.zero_add _)
    (by simp only [atSend, Config.txDepth]; omega)
    (fun k hk => by simpa [hk, atSend] using stored_writeList s.txbuf (frameOf s.cfg i) k)
  have h2 := (runSteps_add h0).trans h1
  rw [sendProgress_atSend, ← delivered_append, Nat.add_comm 3] at h2
  exact ⟨m, q, hm, h2⟩

/-- Two cycles from the last byte to Receive: only a byte of the second one is in the buffer then. -/
theorem runSteps_toReceive {v : Byte} {q0 q1 : Pins} {rest : List Event} (hs : s.ph = .swrxA) (hrx : s.rxEn = false)
    (ho : fieldOp s.cur ≠ opGetReg) (hdepth : 0 < s.cfg.capDepth) (h : s.inputs = cycles [q0, q1] ++ rest)
    (hreset : NoReset [q0, q1]) (hv : selFor .receive s = .ok v) : ∃ m, Stored m s.cap 0 (delivered [q1]) ∧
      runSteps 2 s = .next (succeed 0 { s with
        dir := .receive, txEn := false, rxEn := true, auxSel := v, wr := if q1.rxValid then 1 else 0, rd := 0, ovf := false,
        cap := m, rxin := s.rxin ++ delivered [q0, q1], inputs := rest, pins := q1, clock := s.clock + 2 }) := by
  have h0 := step_leaveTransmit (rest := .cycle q1 :: rest) h (hreset q0 (by simp)) hs hv hrx
  obtain ⟨m, hm, h1⟩ := step_enterReceive (s := { s with
    txEn := false, auxSel := v, ph := .swrxB, rspValid := false, rxin := s.rxin ++ delivered [q0], inputs := .cycle q1 :: rest,
    pins := q0, clock := s.clock + 1 }) rfl (hreset q1 (by simp)) rfl ho hdepth
  refine ⟨m, hm, ?_⟩
  rw [runSteps_succ_of_step h0, runSteps_one h1, delivered_cons q0 [q1], ← List.append_assoc]
  rfl

end Sys2Proof.Machine

section
open Sys2Proof Machine Safety Words

/-- Settles O38: the frame is handed over, and the switch back follows. -/
theorem frameIsSentThenReceive : Obligations.FrameIsSentThenReceive := by
  intro s i p0 p1 p2 q0 q1 mid rest hlegal hs hf hall hget hr hin ⟨hreset, hvalid, hword⟩ hcount hlast
  obtain ⟨id, hw⟩ := frameWord_of_frameOf hf hr
  have hdepth : 0 < s.cfg.capDepth := lt_of_lt_of_le (by decide) hlegal.1
  have hnot : fieldOp (wordOf i) ≠ opGetReg := fun ho => by simp [hw.getReg_iff.1 ho] at hget
  have hsel : selFor .transmit { s with cur := wordOf i } = .ok (selectorAfter s i) :=
    selFor_of_frameWord (s := { s with cur := wordOf i }) hw hlegal rfl hall .transmit
  obtain ⟨m0, q, hm0, h0⟩ := runSteps_sendsFrame (p1 := p1) (p2 := p2) (mid := mid) (rest := cycles [q0, q1] ++ rest) hs hf hr
    (by rw [hin]; simp [cycles]) ⟨noReset_of_subset hreset (by grind), hvalid, hword⟩ hsel hcount hlast
  rw [afterLastByte, if_neg (by simp [frameSent, atSend, hw.all_eq, hall])] at h0
  obtain ⟨m1, hm1, h1⟩ := runSteps_toReceive (s := { frameSent s i (selectorAfter s i) m0 (delivered (p0 :: p1 :: p2 :: mid))
      (cycles [q0, q1] ++ rest) q (mid.length + 3) with ph := .swrxA }) rfl rfl hnot hdepth rfl (noReset_of_subset hreset (by grind))
    (selFor_after_switch hw hlegal (by rfl) hall (by rfl) (by rfl) .receive)
  refine ⟨_, (runSteps_add h0).trans h1, ?_, ⟨m0, hm0, hm1⟩, ?_⟩
  · exact stored_writeList _ _
  · have hheard : s.rxin ++ delivered (p0 :: p1 :: p2 :: mid) ++ delivered [q0, q1] =
        s.rxin ++ delivered (p0 :: p1 :: p2 :: (mid ++ [q0, q1])) := by
      rw [List.append_assoc, ← delivered_append]
      rfl
    rw [← hheard]
    rfl

end
end

section
/-! PROOFS. The frame that an acceptance builds (spec/44_serializer.md R133, R138, R154), as the state after it. -/

namespace Sys2Proof.Machine

open Words

variable {s : State}

/-- The acceptance of a frame-sending command as its meaning: the word is latched, the frame is loaded, the switch comes next. -/
theorem exec_acceptFrame {i : Instr} (hs : s.ph = .idle) (hf : frameOf s.cfg i ≠ []) (hr : InRange s.cfg i) :
    exec i s = .next { s with
      cur := wordOf i, txbuf := Memory.writeList s.txbuf 0 (frameOf s.cfg i), txlen := (frameOf s.cfg i).length, txpos := 0,
      ph := .swtxA, rspValid := false } := by
  have hc := isCommand_of_frameOf hf
  rw [exec_idle hc hs, if_pos ((wellFormed_iff_inRange hc).2 hr), acceptAction_of_frameOf (by exact hf)]
  rfl

/-- The acceptance of a write of a 16-bit value, for each of the commands that build its request; low byte first (spec/20_memory.md
R42). -/
theorem exec_wordWrite {i : Instr} {id addr lo hi : Byte} {w : Word40} (hs : s.ph = .idle) (hr : InRange s.cfg i)
    (hf : frameOf s.cfg i = request9 id s.cfg.instWrite addr (low (hi ++ lo)) (high (hi ++ lo))) (hw : wordOf i = w) :
    exec i s = .next { s with
      cur := w, txbuf := Memory.writeList s.txbuf 0 (request9 id s.cfg.instWrite addr lo hi), txlen := 9, txpos := 0,
      ph := .swtxA, rspValid := false } := by
  have hlow : low (hi ++ lo) = lo := lowByte_word16 lo hi
  have hhigh : high (hi ++ lo) = hi := highByte_word16 lo hi
  rw [hlow, hhigh] at hf
  rw [exec_acceptFrame hs (by simp [hf, request9]) hr, hf, hw]
  rfl

/-- A word that ends in a 16-bit value ends in its two bytes, the high one first. -/
theorem wordBytes_append_word (b id addr lo hi : Byte) :
    (b ++ id ++ addr ++ (hi ++ lo) : Word40) = b ++ id ++ addr ++ hi ++ lo :=
  (BitVec.append_assoc (x₁ := b ++ id ++ addr) (x₂ := hi) (x₃ := lo)).symm

end Sys2Proof.Machine

section
open Sys2Proof Machine Safety Words

/-- Settles O12: the three commands load one frame, and their words end in the bytes of the value. -/
theorem wordWriteRequestsAreBuilt : Obligations.WordWriteRequestsAreBuilt := by
  intro s id addr lo hi hs hid
  exact ⟨_, stored_writeList s.txbuf (request9 id s.cfg.instWrite addr lo hi),
    exec_wordWrite hs (by exact hid) rfl (wordBytes_append_word 0x70 id addr lo hi),
    exec_wordWrite hs (by exact hid) rfl (wordBytes_append_word 0x78 id addr lo hi),
    exec_wordWrite hs (by exact hid) rfl (wordBytes_append_word 0xB0 id addr lo hi)⟩

end
end

section
/-! PROOFS. Bytes that arrive with the receiver on, however many (spec/42_capture.md R105, spec/20_memory.md R48), and the steps that do
not empty the buffer: the engine leaves it alone, and what is delivered is received. -/

namespace Sys2Proof.Machine

open Words

variable {s t : State}

theorem stored_writeList_at (m : Memory) (i : Nat) (l : List Byte) : Stored (Memory.writeList m i l) m i l := fun k => by
  rw [Memory.read_writeList]
  by_cases hi : k < i
  · simp [hi]
  · by_cases hl : k < i + l.length
    · have h : k - i < l.length := by omega
      simp [hi, hl, h]
    · have h : ¬ k - i < l.length := by omega
      simp [hi, hl, h]

/-- With the receiver on, the first bytes are stored from `WR` on, as many as there is room for, and one too many sets `OVF` (R105). -/
theorem receiveBytes_enabled (l : List Byte) (s : State) (h : s.rxEn = true) :
    receiveBytes l s = { s with
      cap := Memory.writeList s.cap s.wr (l.take (s.cfg.capDepth - s.wr)), wr := s.wr + min l.length (s.cfg.capDepth - s.wr),
      ovf := s.ovf || decide (s.cfg.capDepth - s.wr < l.length), rxin := s.rxin ++ l } := by
  induction l generalizing s with
  | nil => simp [Memory.writeList]
  | cons b rest ih =>
    rw [receiveBytes_cons, ih _ (by simpa using h)]
    by_cases hw : s.wr < s.cfg.capDepth
    · -- room for `b`, and for one byte less after it
      obtain ⟨n, hn⟩ := Nat.exists_eq_add_of_lt hw
      have hroom : s.cfg.capDepth - s.wr = n + 1 := by omega
      have hrest : s.cfg.capDepth - (s.wr + 1) = n := by omega
      rw [rxStep_room h hw]
      simp only [hroom, hrest, List.take_succ_cons, Memory.writeList, List.length_cons, Nat.add_lt_add_iff_right, List.append_assoc,
        List.singleton_append, Nat.add_min_add_right, Nat.add_assoc, Nat.add_comm 1]
    · -- no room for `b` nor for any after it
      have hroom : s.cfg.capDepth - s.wr = 0 := by omega
      rw [rxStep_full h (Nat.le_of_not_lt hw)]
      simp [hroom, Memory.writeList]

/-- The receive step of a cycle receives what the cycle delivers. -/
theorem rxStep_eq_receiveBytes (p : Pins) (u : State) :
    rxStep p.rxValid p.rxData u = receiveBytes (if p.rxValid then [p.rxData] else []) u := by
  cases p.rxValid <;> rfl

/-- A step that does not empty the buffer receives what it delivers, into the buffer as it was (R105, R110). -/
theorem step_receives (h : step s = .next t) (hne : ¬ EmptiesNext s) : ∃ u, receiveBytes (deliveredNext s) u = t ∧
    u.cap = s.cap ∧ u.wr = s.wr ∧ u.ovf = s.ovf ∧ u.cfg = s.cfg := by
  rcases step_cases h with ⟨l, he, rfl⟩ | ⟨p, he, hp, _⟩ | ⟨p, u, hp, hm, rfl⟩
  · exact ⟨advance s, by rw [deliveredNext, he], by simp⟩
  · exact absurd (.inl ⟨p, he, hp⟩) hne
  · refine ⟨u, by rw [deliveredNext, hp.1, rxStep_eq_receiveBytes], hm.cap_eq, ?_, ?_, hm.cfg_eq⟩
    all_goals cases hm.captureMove with
    | kept hwr _ hovf | consumed _ _ hwr _ hovf => assumption
    | emptied hq => exact absurd (.inr ⟨p, hp, hq⟩) hne

end Sys2Proof.Machine

section
open Sys2Proof Machine Safety Words

/-- Settles O26: outside the emptying steps the engine leaves the buffer to the bytes that arrive. -/
theorem captureKeepsArrivalOrder : Obligations.CaptureKeepsArrivalOrder := by
  intro s t h hne
  obtain ⟨u, rfl, hcap, hwr, hovf, hcfg⟩ := step_receives h hne
  rw [receiveBytes_rxEn, ← hcap, ← hwr, ← hovf, ← hcfg]
  refine ⟨fun hr => ?_, fun hr => ?_⟩
  · rw [receiveBytes_enabled _ _ hr]
    exact ⟨stored_writeList_at _ _ _, rfl, rfl⟩
  · rw [receiveBytes_disabled _ _ hr]
    exact ⟨rfl, rfl, rfl⟩

end
end

section
/-! PROOFS. `GET_REG` from its acceptance to the start of the reader (spec/45_register_access_init.md R148, R149): the frame is sent as
that of any command, and the switch back starts the reader in its second step. -/

namespace Sys2Proof.Machine

open Safety Words

variable {s : State}

/-- The receive step on an empty buffer with the receiver on: a byte that arrives is the first in it. -/
theorem rxStep_emptied {u : State} (hrx : u.rxEn = true) (hwr : u.wr = 0) (hovf : u.ovf = false) (hdepth : 0 < u.cfg.capDepth)
    (p : Pins) : ∃ m, Stored m u.cap 0 (delivered [p]) ∧ rxStep p.rxValid p.rxData u = { u with
      cap := m, wr := if p.rxValid then 1 else 0, rxin := u.rxin ++ delivered [p] } := by
  obtain ⟨m, hm, hu⟩ := rxStep_stored u p
  have hc : caught u [p] = delivered [p] := by
    have hl : (delivered [p]).length ≤ 1 := by rw [delivered_singleton]; split <;> simp
    rw [caught, if_pos hrx, hwr, List.take_of_length_le (by omega)]
  rw [hc, hwr] at hm hu
  refine ⟨m, hm, hu.trans ?_⟩
  cases hv : p.rxValid <;> simp [hv, hovf, hdepth.ne']

/-- The cycle of `SWRX_B` inside `GET_REG`: the reader starts as the receiver is enabled, and a byte of that cycle is the first in the
buffer (R15, R98, R149). -/
theorem step_startRead {p : Pins} {rest : List Event} (h : s.inputs = .cycle p :: rest) (hp : p.rst = false) (hs : s.ph = .swrxB)
    (ho : fieldOp s.cur = opGetReg) (hdepth : 0 < s.cfg.capDepth) : ∃ m, Stored m s.cap 0 (delivered [p]) ∧
      step s = .next (readerInit (responseSize (fieldDataLo s.cur)) { s with
        rxEn := true, dir := .receive, wr := if p.rxValid then 1 else 0, rd := 0, ovf := false, ph := .read, rspValid := false,
        cap := m, rxin := s.rxin ++ delivered [p], inputs := rest, pins := p, clock := s.clock + 1 }) := by
  rw [step_cycle h hp, engineStep_swrxB (by exact hs), swrxB_eq_next.2 (.inl ⟨by exact ho, rfl⟩), andThen_next]
  obtain ⟨m, hm, hu⟩ := rxStep_emptied (u := { readerInit (responseSize (fieldDataLo s.cur)) (emptyCapture { s with
    inputs := rest, clock := s.clock + 1, pins := p, rspValid := false, rxEn := true, dir := .receive }) with ph := .read })
    rfl rfl rfl hdepth p
  exact ⟨m, hm, congrArg Host.Outcome.next hu⟩

/-- Two cycles from the last byte to the start of the reader: only a byte of the second one is in the buffer then. -/
theorem runSteps_toRead {v : Byte} {q0 q1 : Pins} {rest : List Event} (hs : s.ph = .swrxA) (hrx : s.rxEn = false)
    (ho : fieldOp s.cur = opGetReg) (hdepth : 0 < s.cfg.capDepth) (h : s.inputs = cycles [q0, q1] ++ rest)
    (hreset : NoReset [q0, q1]) (hv : selFor .receive s = .ok v) : ∃ m, Stored m s.cap 0 (delivered [q1]) ∧
      runSteps 2 s = .next (readerInit (responseSize (fieldDataLo s.cur)) { s with
        dir := .receive, txEn := false, rxEn := true, auxSel := v, wr := if q1.rxValid then 1 else 0, rd := 0, ovf := false,
        ph := .read, rspValid := false, cap := m, rxin := s.rxin ++ delivered [q0, q1], inputs := rest, pins := q1,
        clock := s.clock + 2 }) := by
  have h0 := step_leaveTransmit (rest := .cycle q1 :: rest) h (hreset q0 (by simp)) hs hv hrx
  obtain ⟨m, hm, h1⟩ := step_startRead (s := { s with
    txEn := false, auxSel := v, ph := .swrxB, rspValid := false, rxin := s.rxin ++ delivered [q0], inputs := .cycle q1 :: rest,
    pins := q0, clock := s.clock + 1 }) rfl (hreset q1 (by simp)) rfl ho hdepth
  refine ⟨m, hm, ?_⟩
  rw [runSteps_succ_of_step h0, runSteps_one h1, delivered_cons q0 [q1], ← List.append_assoc]

/-- The width of a `GET_REG` stands in the low byte of its word (spec/30_encoding.md R62). -/
theorem fieldDataLo_getReg (id addr width : Byte) : fieldDataLo (wordOf (.getReg id addr width)) = width := by
  have hw : commandWord opGetReg false id addr (zext16 width) = wordOf (.getReg id addr width) :=
    Image.command.inj (encode_eq_wordOf (i := .getReg id addr width) (Config.defaults 1) rfl)
  rw [← hw, fieldDataLo_commandWord, lowByte_zext16]

end Sys2Proof.Machine

section
open Sys2Proof Machine Safety Words

/-- Settles O40: the request is handed over, and the switch back starts the reader. -/
theorem getRegSendsThenReads : Obligations.GetRegSendsThenReads := by
  intro s id addr width p0 p1 p2 q0 q1 mid rest hlegal hs hr hin ⟨hreset, hvalid, hword⟩ hcount hlast
  have hf : frameOf s.cfg (.getReg id addr width) ≠ [] := List.cons_ne_nil _ _
  obtain ⟨fid, hw⟩ := frameWord_of_frameOf hf hr
  have hdepth : 0 < s.cfg.capDepth := lt_of_lt_of_le (by decide) hlegal.1
  have hsel : selFor .transmit { s with cur := wordOf (.getReg id addr width) } = .ok (selectorAfter s (.getReg id addr width)) :=
    selFor_of_frameWord (s := { s with cur := wordOf (.getReg id addr width) }) hw hlegal rfl rfl .transmit
  obtain ⟨m0, q, hm0, h0⟩ := runSteps_sendsFrame (p1 := p1) (p2 := p2) (mid := mid) (rest := cycles [q0, q1] ++ rest) hs hf hr
    (by rw [hin]; simp [cycles]) ⟨noReset_of_subset hreset (by grind), hvalid, hword⟩ hsel hcount hlast
  rw [afterLastByte, if_neg (by simp [frameSent, atSend, hw.all_eq, hasAll])] at h0
  obtain ⟨m1, hm1, h1⟩ := runSteps_toRead (s := { frameSent s (.getReg id addr width) (selectorAfter s (.getReg id addr width)) m0
      (delivered (p0 :: p1 :: p2 :: mid)) (cycles [q0, q1] ++ rest) q (mid.length + 3) with ph := .swrxA }) rfl rfl
    (hw.getReg_iff.2 rfl) hdepth rfl (noReset_of_subset hreset (by grind))
    (selFor_after_switch hw hlegal (by rfl) rfl (by rfl) (by rfl) .receive)
  refine ⟨_, (runSteps_add h0).trans h1, ?_, ⟨m0, hm0, hm1⟩, ?_⟩
  · exact stored_writeList _ _
  · have hheard : s.rxin ++ delivered (p0 :: p1 :: p2 :: mid) ++ delivered [q0, q1] =
        s.rxin ++ delivered (p0 :: p1 :: p2 :: (mid ++ [q0, q1])) := by
      rw [List.append_assoc, ← delivered_append]
      rfl
    have hsize : responseSize (fieldDataLo (wordOf (.getReg id addr width))) = width.toNat + 6 := by
      rw [fieldDataLo_getReg, responseSize]
    rw [← hheard, ← hsize]
    rfl

end
end

section
/-! PROOFS. The bytes of a frame on the line (spec/30_encoding.md R71 to R76): a request and a response have one layout, the decoder reads
the frame from it, and drops no byte. -/

namespace Sys2Proof.Machine

/-- The decoder reads bytes of the common layout as the request they have the form of, else as a response (R71, assumption log 7). -/
theorem decodeFrame_responseBytes (p : Params) (id length inst : Byte) (data : List Byte) (chk : Byte) :
    decodeFrame p (responseBytes id length inst data chk) =
      .ok ((requestOf p id length inst (data ++ [chk])).getD (.frameResponse id length inst data chk)) := by
  obtain ⟨r, rs, hr⟩ := List.exists_cons_of_ne_nil (List.append_ne_nil_of_right_ne_nil data (List.cons_ne_nil chk []))
  have hdata : (r :: rs).dropLast = data := by rw [← hr, List.dropLast_concat]
  have hchk : (r :: rs).getLastD 0 = chk := by rw [← hr, List.getLastD_concat]
  rw [responseBytes, hr, decodeFrame, if_pos ⟨rfl, rfl⟩, hdata, hchk]
  cases requestOf p id length inst (r :: rs) <;> rfl

/-- The three request forms (R73 to R75): a request is encoded to the bytes it was read from. -/
theorem encode_of_requestOf {p : Params} {id length inst : Byte} {rest : List Byte} {i : Instr}
    (h : requestOf p id length inst rest = some i) :
    encode p i = .line (Config.sync :: Config.sync :: id :: length :: inst :: rest) := by
  unfold requestOf at h
  split at h
  · split_ifs at h with hread hwrite
    · obtain ⟨rfl, rfl⟩ := hread
      cases h
      rfl
    · obtain ⟨rfl, rfl⟩ := hwrite
      cases h
      rfl
  · split_ifs at h with hwrite
    obtain ⟨rfl, rfl⟩ := hwrite
    cases h
    simp [encode, write2ReqBytes]
  · exact nomatch h

/-- Bytes that decode begin with the marker and have at least one byte after the status (R71, R72). -/
theorem responseBytes_of_decodeFrame {p : Params} {bytes : List Byte} {i : Instr} (h : decodeFrame p bytes = .ok i) :
    ∃ id length inst data chk, bytes = responseBytes id length inst data chk := by
  unfold decodeFrame at h
  split at h
  · next s0 s1 id length inst r rs =>
    split_ifs at h with hsync
    obtain ⟨rfl, rfl⟩ := hsync
    refine ⟨id, length, inst, (r :: rs).dropLast, (r :: rs).getLast (List.cons_ne_nil r rs), ?_⟩
    rw [responseBytes, List.dropLast_append_getLast]
  · exact nomatch h

/-- No byte of a frame is dropped: it is the encoding of what it decodes to. -/
theorem encode_of_decodeFrame {p : Params} {bytes : List Byte} {i : Instr} (h : decodeFrame p bytes = .ok i) :
    encode p i = .line bytes := by
  obtain ⟨id, length, inst, data, chk, rfl⟩ := responseBytes_of_decodeFrame h
  rw [decodeFrame_responseBytes, Except.ok.injEq] at h
  subst h
  cases hreq : requestOf p id length inst (data ++ [chk]) with
  | none => rfl
  | some i => exact encode_of_requestOf hreq

theorem encode_of_decode {p : Params} {m : Image} {i : Instr} (h : decode p m = .ok i) : encode p i = m := by
  cases m with
  | command w => exact encode_of_decodeCommand p h
  | line bytes => exact encode_of_decodeFrame h

/-- A frame is encoded in the common layout of requests and responses (R71). -/
theorem encode_frame_eq_responseBytes (p : Params) {i : Instr} (h : isCommand i = false) :
    ∃ id length inst data chk, encode p i = .line (responseBytes id length inst data chk) := by
  cases i with
  | frameReadReq id addr len chk => exact ⟨id, 4, p.instRead, [addr, len], chk, rfl⟩
  | frameWrite1Req id addr val chk => exact ⟨id, 4, p.instWrite, [addr, val], chk, rfl⟩
  | frameWrite2Req id addr val chk => exact ⟨id, 5, p.instWrite, [addr, lowByte val, highByte val], chk, rfl⟩
  | frameResponse id length status data chk => exact ⟨id, length, status, data, chk, rfl⟩
  | _ => exact absurd h.symm Bool.false_ne_true

theorem decode_encode_of_isCommand (p : Params) {i : Instr} (h : isCommand i = true) : decode p (encode p i) = .ok i := by
  rw [encode_eq_wordOf p h]
  exact decodeCommand_wordOf h

/-- Every encoding decodes to some instruction. -/
theorem decode_encode_total (p : Params) (i : Instr) : ∃ j, decode p (encode p i) = .ok j := by
  cases hc : isCommand i with
  | true => exact ⟨i, decode_encode_of_isCommand p hc⟩
  | false =>
    obtain ⟨id, length, inst, data, chk, he⟩ := encode_frame_eq_responseBytes p hc
    rw [he]
    exact ⟨_, decodeFrame_responseBytes p id length inst data chk⟩

/-- An instruction whose bytes tell its row is what they decode to. -/
theorem decode_encode_of_toldApart {p : Params} {i : Instr} (h : toldApart p i = true) : decode p (encode p i) = .ok i := by
  cases i with
  | frameReadReq id addr len chk =>
    refine (decodeFrame_responseBytes p id 4 p.instRead [addr, len] chk).trans ?_
    simp [requestOf]
  | frameWrite1Req id addr val chk =>
    have hne : p.instWrite ≠ p.instRead := Ne.symm (by simpa [toldApart] using h)
    refine (decodeFrame_responseBytes p id 4 p.instWrite [addr, val] chk).trans ?_
    simp [requestOf, hne]
  | frameWrite2Req id addr val chk =>
    refine (decodeFrame_responseBytes p id 5 p.instWrite [addr, lowByte val, highByte val] chk).trans ?_
    simp [requestOf]
  | frameResponse id length status data chk =>
    have hnone : requestOf p id length status (data ++ [chk]) = none := by simpa [toldApart] using h
    refine (decodeFrame_responseBytes p id length status data chk).trans ?_
    rw [hnone, Option.getD_none]
  | _ => exact decode_encode_of_isCommand p rfl

end Sys2Proof.Machine

section
open Sys2Proof Machine Safety Words

/-- Settles O2: every encoding decodes, and what it decodes to has the same encoding. -/
theorem decodeEncodeRoundTrip : Obligations.DecodeEncodeRoundTrip := by
  refine fun p i => ⟨decode_encode_of_toldApart, fun _ => ?_⟩
  obtain ⟨j, hj⟩ := decode_encode_total p i
  exact ⟨j, hj, encode_of_decode hj⟩

/-- Settles O3: a command word is its fields laid out, and a frame keeps its bytes in every form. -/
theorem encodeDecodeKeepsEveryBit : Obligations.EncodeDecodeKeepsEveryBit := fun _ _ _ => encode_of_decode

/-- Settles O4: the words of the spec are the words laid out field by field. -/
theorem encoderLaysOutTheFields : Obligations.EncoderLaysOutTheFields := fun p _ => encode_eq_wordOf p

/-- Settles O1: the eight commands encode to the spec's words, and the decoder reads a command back from its encoding. -/
theorem specExampleWordsDecode : Obligations.SpecExampleWordsDecode := by
  intro x hx
  have he : encode (Config.defaults 1) x.1 = .command x.2 := by
    revert x
    decide
  exact ⟨decodeCommand_of_encode he, he⟩

end
end

section
/-! PROOFS. The mask table (spec/30_encoding.md R62): a word selects a row exactly when it decodes to that row's command, and what no row
selects is what R64 refuses. -/

namespace Sys2Proof.Machine

open Words

/-! ### The fields of a masked word -/

section
variable (w m : Word40)

@[simp] theorem fieldOp_and : fieldOp (w &&& m) = fieldOp w &&& fieldOp m := BitVec.extractLsb'_and
@[simp] theorem fieldAll_and : fieldAll (w &&& m) = (fieldAll w && fieldAll m) := BitVec.getLsbD_and
@[simp] theorem fieldRsv_and : fieldRsv (w &&& m) = fieldRsv w &&& fieldRsv m := BitVec.extractLsb'_and
@[simp] theorem fieldId_and : fieldId (w &&& m) = fieldId w &&& fieldId m := BitVec.extractLsb'_and
@[simp] theorem fieldAddr_and : fieldAddr (w &&& m) = fieldAddr w &&& fieldAddr m := BitVec.extractLsb'_and
@[simp] theorem fieldData_and : fieldData (w &&& m) = fieldData w &&& fieldData m := BitVec.extractLsb'_and
@[simp] theorem fieldDataHi_and : fieldDataHi (w &&& m) = fieldDataHi w &&& fieldDataHi m := BitVec.extractLsb'_and

end

/-! ### What the rows of the table have in common -/

/-- A row fixes its operation code, which is not reserved, and asks for 0 wherever else it asks for something; it asks for zero reserved
bits, and for `all = 0` but in the two commands that have the variant (R60, R64, R66). -/
structure RowFields (r : CommandRow) : Prop where
  op_mask : fieldOp r.mask = BitVec.allOnes 4
  op_pattern : fieldOp r.pattern ∉ ([0x0, 0xD, 0xE, 0xF] : List (BitVec 4))
  rsv_mask : fieldRsv r.mask = BitVec.allOnes 3
  rsv_pattern : fieldRsv r.pattern = 0
  all_mask : fieldOp r.pattern ≠ opBuildWrite → fieldOp r.pattern ≠ opBuildWrite2 → fieldAll r.mask = true
  all_pattern : fieldAll r.pattern = false
  id_pattern : fieldId r.pattern = 0
  addr_pattern : fieldAddr r.pattern = 0
  data_pattern : fieldData r.pattern = 0
  dataHi_pattern : fieldDataHi r.pattern = 0

theorem rowFields : ∀ r ∈ commandRows, RowFields r := by
  intro r hr
  constructor <;> revert r <;> decide

theorem commandRows_op_injective : ∀ r ∈ commandRows, ∀ q ∈ commandRows, fieldOp r.pattern = fieldOp q.pattern → r = q := by decide

/-- Every operation code that is not reserved has a row (R61, R64). -/
theorem reserved_or_exists_row : ∀ op : BitVec 4,
    op ∈ ([0x0, 0xD, 0xE, 0xF] : List (BitVec 4)) ∨ ∃ r ∈ commandRows, fieldOp r.pattern = op := by decide

/-! ### A word that selects a row -/

/-- A field is 0 where the mask covers it and the pattern is 0. -/
theorem field_eq_zero_of_and {n : Nat} {x m y : BitVec n} (h : x &&& m = y) (hy : y = 0) (hm : m = BitVec.allOnes n) : x = 0 := by
  rw [← hy, ← h, hm, BitVec.and_allOnes]

section
variable {w : Word40} {r : CommandRow} (hr : r ∈ commandRows) (hw : w &&& r.mask = r.pattern)
include hr hw

theorem fieldOp_of_selects : fieldOp w = fieldOp r.pattern := by
  rw [← hw, fieldOp_and, (rowFields r hr).op_mask, BitVec.and_allOnes]

theorem fieldRsv_of_selects : fieldRsv w = 0 :=
  field_eq_zero_of_and ((fieldRsv_and w r.mask).symm.trans (congrArg fieldRsv hw)) (rowFields r hr).rsv_pattern
    (rowFields r hr).rsv_mask

theorem fieldAll_of_selects (hm : fieldAll r.mask = true) : fieldAll w = false := by
  rw [← (rowFields r hr).all_pattern, ← hw, fieldAll_and, hm, Bool.and_true]

theorem fieldId_of_selects (hm : fieldId r.mask = BitVec.allOnes 8) : fieldId w = 0 :=
  field_eq_zero_of_and ((fieldId_and w r.mask).symm.trans (congrArg fieldId hw)) (rowFields r hr).id_pattern hm

theorem fieldAddr_of_selects (hm : fieldAddr r.mask = BitVec.allOnes 8) : fieldAddr w = 0 :=
  field_eq_zero_of_and ((fieldAddr_and w r.mask).symm.trans (congrArg fieldAddr hw)) (rowFields r hr).addr_pattern hm

theorem fieldData_of_selects (hm : fieldData r.mask = BitVec.allOnes 16) : fieldData w = 0 :=
  field_eq_zero_of_and ((fieldData_and w r.mask).symm.trans (congrArg fieldData hw)) (rowFields r hr).data_pattern hm

theorem fieldDataHi_of_selects (hm : fieldDataHi r.mask = BitVec.allOnes 8) : fieldDataHi w = 0 :=
  field_eq_zero_of_and ((fieldDataHi_and w r.mask).symm.trans (congrArg fieldDataHi hw)) (rowFields r hr).dataHi_pattern hm

/-- A word that selects a row is the word of that row's command with the operands of its fields. -/
theorem encode_of_selects (p : Params) : ∃ i, encode p i = .command w ∧ mnemonicOf i = r.mnemonic := by
  have hall := fieldAll_of_selects hr hw
  have hid := fieldId_of_selects hr hw
  have haddr := fieldAddr_of_selects hr hw
  have hdata := fieldData_of_selects hr hw
  have hlo (hm : fieldDataHi r.mask = BitVec.allOnes 8) := zext16_fieldDataLo (fieldDataHi_of_selects hr hw hm)
  have hop := fieldOp_of_selects hr hw
  have hrsv := fieldRsv_of_selects hr hw
  have hlaid := commandWord_fields hrsv
  rw [hop] at hlaid
  clear hw
  simp only [commandRows, List.mem_cons, List.not_mem_nil, or_false] at hr
  rcases hr with rfl | rfl | rfl | rfl | rfl | rfl | rfl | rfl | rfl | rfl | rfl | rfl
  · exact ⟨.init (fieldBaud w), congrArg _ (initWord_fieldBaud hop (hall rfl) hrsv), rfl⟩
  · rw [hall rfl, haddr rfl, hdata rfl] at hlaid
    exact ⟨.swTx (fieldId w), congrArg _ hlaid, rfl⟩
  · rw [hall rfl, haddr rfl, hdata rfl] at hlaid
    exact ⟨.swRx (fieldId w), congrArg _ hlaid, rfl⟩
  · rw [hall rfl, hid rfl, haddr rfl, hdata rfl] at hlaid
    exact ⟨.swAllTx, congrArg _ hlaid, rfl⟩
  · rw [hall rfl, ← hlo rfl] at hlaid
    exact ⟨.buildRead (fieldId w) (fieldAddr w) (fieldDataLo w), congrArg _ hlaid, rfl⟩
  · rw [← hlo rfl] at hlaid
    exact ⟨.buildWrite (fieldAll w) (fieldId w) (fieldAddr w) (fieldDataLo w), congrArg _ hlaid, rfl⟩
  · exact ⟨.buildWrite2 (fieldAll w) (fieldId w) (fieldAddr w) (fieldData w), congrArg _ hlaid, rfl⟩
  · rw [hall rfl, hid rfl, haddr rfl, ← hlo rfl] at hlaid
    exact ⟨.readPacket (fieldDataLo w), congrArg _ hlaid, rfl⟩
  · rw [hall rfl, ← hlo rfl] at hlaid
    exact ⟨.getReg (fieldId w) (fieldAddr w) (fieldDataLo w), congrArg _ hlaid, rfl⟩
  · rw [hall rfl, ← hlo rfl] at hlaid
    exact ⟨.setReg (fieldId w) (fieldAddr w) (fieldDataLo w), congrArg _ hlaid, rfl⟩
  · rw [hall rfl] at hlaid
    exact ⟨.setReg2 (fieldId w) (fieldAddr w) (fieldData w), congrArg _ hlaid, rfl⟩
  · rw [hall rfl, hid rfl, haddr rfl, hdata rfl] at hlaid
    exact ⟨.getLastError, congrArg _ hlaid, rfl⟩

end

/-! ### Selection and decoding -/

/-- Every instruction's word selects its own row, and a frame has the layout of R71. -/
theorem ownRow (i : Instr) : Laws.OwnRow.Statement i := by
  cases i with
  | init baud => exact Laws.OwnRow.init baud
  | swTx id => exact Laws.OwnRow.swTx id
  | swRx id => exact Laws.OwnRow.swRx id
  | swAllTx => exact Laws.OwnRow.swAllTx
  | buildRead id addr len => exact Laws.OwnRow.buildRead id addr len
  | buildWrite all id addr val => exact Laws.OwnRow.buildWrite all id addr val
  | buildWrite2 all id addr val => exact Laws.OwnRow.buildWrite2 all id addr val
  | readPacket n => exact Laws.OwnRow.readPacket n
  | getReg id addr width => exact Laws.OwnRow.getReg id addr width
  | setReg id addr val => exact Laws.OwnRow.setReg id addr val
  | setReg2 id addr val => exact Laws.OwnRow.setReg2 id addr val
  | getLastError => exact Laws.OwnRow.getLastError
  | frameReadReq id addr len chk => exact Laws.OwnRow.frameReadReq id addr len chk
  | frameWrite1Req id addr val chk => exact Laws.OwnRow.frameWrite1Req id addr val chk
  | frameWrite2Req id addr val chk => exact Laws.OwnRow.frameWrite2Req id addr val chk
  | frameResponse id length status data chk => exact Laws.OwnRow.frameResponse id length status data chk

/-- A word that decodes selects the row of the command that it decodes to. -/
theorem selects_of_decodeCommand {w : Word40} {i : Instr} (h : decodeCommand w = .ok i) :
    ∃ r ∈ commandRows, r.mnemonic = mnemonicOf i ∧ w &&& r.mask = r.pattern := by
  have hrow := ownRow i (Config.defaults 1)
  rw [encode_of_decodeCommand _ h] at hrow
  obtain ⟨-, r, hr, hm, hsel⟩ := hrow
  exact ⟨r, hr, hm, beq_iff_eq.1 hsel⟩

/-- A word that selects a row decodes to that row's command. -/
theorem decodeCommand_of_selects {w : Word40} {r : CommandRow} (hr : r ∈ commandRows) (hw : w &&& r.mask = r.pattern) :
    ∃ i, decodeCommand w = .ok i ∧ mnemonicOf i = r.mnemonic := by
  obtain ⟨i, he, hm⟩ := encode_of_selects hr hw (Config.defaults 1)
  exact ⟨i, decodeCommand_of_encode he, hm⟩

/-- The operands of what a word decodes to stand at their bits (R62, R63). -/
theorem operandsAt_of_decodeCommand {w : Word40} {i : Instr} (h : decodeCommand w = .ok i) : OperandsAt w i := by
  have hw := encode_of_decodeCommand (Config.defaults 1) h
  cases i <;> simp only [encode, Image.command.injEq, reduceCtorEq] at hw <;> subst hw
  case init baud => exact (fieldBaud_initWord baud).symm
  case swTx | swRx => exact (fieldId_commandWord ..).symm
  case readPacket n => exact (lowByte_zext16 n).symm.trans (fieldDataLo_commandWord ..).symm
  case swAllTx | getLastError => exact trivial
  case buildRead | getReg | setReg =>
    exact ⟨(fieldId_commandWord ..).symm, (fieldAddr_commandWord ..).symm,
      (lowByte_zext16 _).symm.trans (fieldDataLo_commandWord ..).symm⟩
  case buildWrite =>
    exact ⟨(fieldAll_commandWord ..).symm, (fieldId_commandWord ..).symm, (fieldAddr_commandWord ..).symm,
      (lowByte_zext16 _).symm.trans (fieldDataLo_commandWord ..).symm⟩
  case buildWrite2 =>
    exact ⟨(fieldAll_commandWord ..).symm, (fieldId_commandWord ..).symm, (fieldAddr_commandWord ..).symm,
      (fieldData_commandWord ..).symm⟩
  case setReg2 =>
    exact ⟨(fieldId_commandWord ..).symm, (fieldAddr_commandWord ..).symm, (fieldData_commandWord ..).symm⟩

/-! ### The refused words -/

/-- A word is refused for one of the four reasons of R64. -/
theorem refused_iff {w : Word40} : (∀ i, decodeCommand w ≠ .ok i) ↔
    (fieldOp w ∈ ([0x0, 0xD, 0xE, 0xF] : List (BitVec 4)) ∨ fieldRsv w ≠ 0 ∨
      (fieldAll w = true ∧ fieldOp w ≠ opBuildWrite ∧ fieldOp w ≠ opBuildWrite2) ∨
      ∃ r ∈ commandRows, fieldOp r.pattern = fieldOp w ∧ w &&& r.mask ≠ r.pattern) := by
  constructor
  · intro h
    rcases reserved_or_exists_row (fieldOp w) with hop | ⟨r, hr, hop⟩
    · exact .inl hop
    · refine .inr (.inr (.inr ⟨r, hr, hop, fun hsel => ?_⟩))
      obtain ⟨i, hi, -⟩ := decodeCommand_of_selects hr hsel
      exact h i hi
  · intro h i hi
    obtain ⟨r, hr, -, hsel⟩ := selects_of_decodeCommand hi
    have hop := fieldOp_of_selects hr hsel
    rcases h with hres | hrsv | ⟨hall, h6, h7⟩ | ⟨q, hq, hopq, hnot⟩
    · exact (rowFields r hr).op_pattern (hop ▸ hres)
    · exact hrsv (fieldRsv_of_selects hr hsel)
    · have hoff := fieldAll_of_selects hr hsel ((rowFields r hr).all_mask (hop ▸ h6) (hop ▸ h7))
      simp [hall] at hoff
    · obtain rfl := commandRows_op_injective q hq r hr (hopq.trans hop)
      exact hnot hsel

/-- A refused word presented in `IDLE` fails with `BADCMD` (R29, R64). -/
theorem engineStep_refused {s : State} (hs : s.ph = .idle) (hv : s.pins.cmdValid = true)
    (h : ∀ i, decodeCommand s.pins.cmdWord ≠ .ok i) : engineStep s = .next (raiseFail .badCmd (clearStrobe s)) := by
  unfold engineStep
  rw [if_pos hv]
  cases hd : decodeCommand s.pins.cmdWord with
  | ok i => exact absurd hd (h i)
  | error e =>
    dsimp only
    rw [engineCycle, hs]
    rfl

end Sys2Proof.Machine

section
open Sys2Proof Machine Safety Words

/-- Settles O5: selection by mask and match is decoding, and the operation codes keep the rows apart. -/
theorem decoderFollowsTheMaskTable : Obligations.DecoderFollowsTheMaskTable := by
  refine ⟨rfl, fun w m => ⟨?_, ?_⟩, fun w r hr q hq hwr hwq => ?_,
    fun w i h => ⟨isCommand_of_decodeCommand h, operandsAt_of_decodeCommand h⟩⟩
  · rintro ⟨i, hi, rfl⟩
    exact selects_of_decodeCommand hi
  · rintro ⟨r, hr, rfl, hsel⟩
    exact decodeCommand_of_selects hr hsel
  · exact commandRows_op_injective r hr q hq ((fieldOp_of_selects hr hwr).symm.trans (fieldOp_of_selects hq hwq))

/-- Settles O6: what no row selects is refused for one of the four reasons, and a refusal is a failure with `BADCMD`. -/
theorem refusedWordsFailAndChangeNothing : Obligations.RefusedWordsFailAndChangeNothing :=
  ⟨fun _ => refused_iff, refused_iff.2 (.inl (by decide)), fun _ => engineStep_refused⟩

end
end

section
/-! PROOFS. The acceptance of a command (spec/10_state.md R29, spec/30_encoding.md R65) and the arrival of a frame (R71, spec/42_capture.md
R105, R106), as the state after it. -/

namespace Sys2Proof.Machine

open Words

variable {s : State}

/-- The acceptance of a command latches its word (R29). -/
theorem acceptAction_cur {i : Instr} (h : isCommand i = true) (s : State) : (acceptAction i s).cur = wordOf i := by
  have hw := encode_eq_wordOf s.cfg h
  cases i with
  | frameReadReq | frameWrite1Req | frameWrite2Req | frameResponse => exact absurd h Bool.false_ne_true
  | _ => exact Image.command.inj hw

/-- An acceptance is no failure: it ends no command, or it is `GET_LAST_ERROR`, which succeeds (spec/45_register_access_init.md R155). -/
theorem acceptAction_rspOk (i : Instr) (s : State) (h : (acceptAction i (clearStrobe s)).rspValid = true) :
    (acceptAction i (clearStrobe s)).rspOk = true := by
  cases i with
  | getLastError => rfl
  | _ => exact absurd h Bool.false_ne_true

/-- A presented word that selects a row runs that instruction (R29). -/
theorem engineStep_decoded {i : Instr} (hv : s.pins.cmdValid = true) (hd : decodeCommand s.pins.cmdWord = .ok i) :
    engineStep s = exec i s := by
  simp [engineStep, hv, hd]

theorem exec_of_inRange {i : Instr} (hc : isCommand i = true) (hs : s.ph = .idle) (hr : InRange s.cfg i) :
    exec i s = .next (acceptAction i (clearStrobe s)) := by
  rw [exec_idle hc hs, if_pos ((wellFormed_iff_inRange hc).2 hr)]

/-- A command out of range fails with `BADCMD` (R65). -/
theorem exec_of_not_inRange {i : Instr} (hc : isCommand i = true) (hs : s.ph = .idle) (hr : ¬ InRange s.cfg i) :
    exec i s = .next (failed .badCmd s) := by
  rw [exec_idle hc hs, if_neg (mt (wellFormed_iff_inRange hc).1 hr)]
  rfl

/-- The acceptance of a command that builds a request with two params (spec/30_encoding.md R73, R74). -/
theorem exec_request8 {i : Instr} {id inst a b : Byte} {w : Word40} (hs : s.ph = .idle) (hr : InRange s.cfg i)
    (hf : frameOf s.cfg i = request8 id inst a b) (hw : wordOf i = w) :
    exec i s = .next { s with
      cur := w, txbuf := Memory.writeList s.txbuf 0 (request8 id inst a b), txlen := 8, txpos := 0, ph := .swtxA,
      rspValid := false } := by
  rw [exec_acceptFrame hs (by simp [hf, request8]) hr, hf, hw]
  rfl

/-- What an instruction does whose meaning is that these bytes arrive (R105, R106). -/
theorem frameArrives_of_exec {i : Instr} {l : List Byte} (h : exec i s = .next (receiveBytes l s)) : FrameArrives i l s :=
  ⟨fun hr => by rw [h, receiveBytes_disabled l s hr], fun hr =>
    ⟨_, stored_writeList_at s.cap s.wr (l.take (s.cfg.capDepth - s.wr)), by rw [h, receiveBytes_enabled l s hr]⟩⟩

end Sys2Proof.Machine

section
open Sys2Proof Machine Safety Words

/-- Settles O7: a command in range has its acceptance action, which latches its word; one out of range fails. -/
theorem operandRangesDecideAcceptance : Obligations.OperandRangesDecideAcceptance := fun i s hc hs =>
  ⟨exec_of_not_inRange hc hs, fun hr => ⟨_, exec_of_inRange hc hs hr, acceptAction_cur hc _, acceptAction_rspOk i s⟩⟩

/-- Settles O10: both commands load one frame, the read request. -/
theorem readRequestsAreBuilt : Obligations.ReadRequestsAreBuilt := fun s id addr x hs hid =>
  have hm := stored_writeList s.txbuf (request8 id s.cfg.instRead addr x)
  ⟨⟨_, hm, exec_request8 hs (by exact hid) rfl rfl⟩, fun hx => ⟨_, hm, exec_request8 hs ⟨hid, hx⟩ rfl rfl⟩⟩

/-- Settles O11: the three commands load one frame, the write request for one byte. -/
theorem byteWriteRequestsAreBuilt : Obligations.ByteWriteRequestsAreBuilt := fun s id addr val hs hid =>
  ⟨_, stored_writeList s.txbuf (request8 id s.cfg.instWrite addr val), exec_request8 hs (by exact hid) rfl rfl,
    exec_request8 hs (by exact hid) rfl rfl, exec_request8 hs (by exact hid) rfl rfl⟩

/-- Settles O15: each frame row is the arrival of the frame's bytes, the value of two bytes low byte first. -/
theorem wireFramesAreCaptured : Obligations.WireFramesAreCaptured := by
  refine fun s => ⟨fun id addr len chk => frameArrives_of_exec rfl, fun id addr val chk => frameArrives_of_exec rfl,
    fun id addr lo hi chk => ?_, fun id length status data chk => frameArrives_of_exec rfl⟩
  have hbytes := frameArrives_of_exec (s := s) (i := .frameWrite2Req id addr (word16 lo hi) chk) rfl
  rwa [write2ReqBytes, lowByte_word16, highByte_word16] at hbytes

end
end

section
/-! PROOFS. The steps that fail (spec/10_state.md R28, R161): what they leave unchanged, and the phase and the cause of each kind. -/

namespace Sys2Proof.Machine

open Words

variable {s t : State}

/-- The acceptance test as a sum of natural numbers (spec/40_checksum.md R89). -/
theorem frameSumOk_iff_total {l : List Byte} : frameSumOk l = true ↔ total l % 256 = 255 := by
  rw [frameSumOk, beq_iff_eq, ← BitVec.toNat_inj, sum8_toNat]
  rfl

/-- A step that ends a command and does not succeed. -/
def Fails (t : State) : Prop := t.rspValid = true ∧ t.rspOk = false

theorem not_fails_of_silent (h : t.rspValid = false) : ¬ Fails t := fun ⟨hv, _⟩ => by simp [h] at hv
theorem not_fails_of_success (h : t.rspOk = true) : ¬ Fails t := fun ⟨_, hok⟩ => by simp [h] at hok

/-- In `IDLE` a word fails that selects no row or whose operand is out of range (R64, R65). -/
theorem fails_idle (hp : s.ph = .idle) (h : engineStep s = .next t) (hf : Fails t) : t = failed .badCmd s ∧
    s.pins.cmdValid = true ∧ ((∀ i, decodeCommand s.pins.cmdWord ≠ .ok i) ∨
      ∃ i, decodeCommand s.pins.cmdWord = .ok i ∧ ¬ InRange s.cfg i) := by
  cases hv : s.pins.cmdValid with
  | false =>
    obtain rfl := Host.Outcome.next.inj ((engineStep_quiet hp hv).symm.trans h)
    exact absurd hf (not_fails_of_silent rfl)
  | true =>
    by_cases hd : ∃ i, decodeCommand s.pins.cmdWord = .ok i
    · obtain ⟨i, hd⟩ := hd
      have hc := isCommand_of_decodeCommand hd
      have he : exec i s = .next t := (engineStep_decoded hv hd).symm.trans h
      by_cases hr : InRange s.cfg i
      · obtain rfl := Host.Outcome.next.inj ((exec_of_inRange hc hp hr).symm.trans he)
        exact absurd hf (not_fails_of_success (acceptAction_rspOk i s hf.1))
      · obtain rfl := Host.Outcome.next.inj ((exec_of_not_inRange hc hp hr).symm.trans he)
        exact ⟨rfl, rfl, .inr ⟨i, hd, hr⟩⟩
    · have hd := not_exists.1 hd
      obtain rfl := Host.Outcome.next.inj ((engineStep_refused hp hv hd).symm.trans h)
      exact ⟨rfl, rfl, .inl hd⟩

/-- In `READ` a starved reader fails: with `OVERFLOW` after a dropped byte, else with `TIMEOUT` when the budget is spent (R119, R120). -/
theorem fails_read (hp : s.ph = .read) (h : engineStep s = .next t) (hf : Fails t) : s.wr ≤ s.rd ∧
    ((t = failed .overflow s ∧ s.ovf = true) ∨ (t = failed .timeout s ∧ s.ovf = false ∧ s.waitc = s.cfg.waitBudget)) := by
  rw [engineStep_read hp] at h
  rcases readStep_eq_next.1 h with ⟨_, b, _, hc⟩ | ⟨hr, ho, rfl⟩ | ⟨hr, ho, hw, rfl⟩ | ⟨_, _, _, rfl⟩
  · rcases classify_cases hc with rfl | ⟨_, _, _, ⟨_, rfl⟩ | ⟨_, rfl⟩⟩ <;> exact absurd hf (not_fails_of_silent rfl)
  · exact ⟨Nat.le_of_not_lt hr, .inl ⟨rfl, ho⟩⟩
  · exact ⟨Nat.le_of_not_lt hr, .inr ⟨rfl, ho, hw⟩⟩
  · exact absurd hf (not_fails_of_silent rfl)

/-- In `CHECK` a frame with a wrong sum fails (R124). -/
theorem fails_check (hp : s.ph = .check) (h : engineStep s = .next t) (hf : Fails t) : t = failed .checksum s ∧
    ∃ l, readBytes .asm s 2 (s.expect - 2) = .ok l ∧ total l % 256 ≠ 255 := by
  rw [engineStep_check hp] at h
  obtain ⟨l, hl, h⟩ := checkStep_eq_next.1 h
  rw [readBytes_clearStrobe] at hl
  rcases h with ⟨hs, rfl⟩ | ⟨_, _, _, ⟨_, rfl⟩ | ⟨_, _, _, _, _, rfl⟩⟩
  · exact ⟨rfl, l, hl, mt frameSumOk_iff_total.2 (by simp [hs])⟩
  · exact absurd hf (not_fails_of_success rfl)
  · exact absurd hf (not_fails_of_success rfl)

/-- A move that fails is made in `IDLE`, `READ` or `CHECK`. -/
theorem EngineMove.phase_of_fails (h : EngineMove s t) (hf : Fails t) : s.ph = .idle ∨ s.ph = .read ∨ s.ph = .check := by
  cases h with
  | quiet hp | refuse hp | accept hp => exact .inl hp
  | skip hp | storeMore hp | storeLast hp | failRead hp | poll hp => exact .inr (.inl hp)
  | failCheck hp | acceptFrame hp | finishGetReg hp => exact .inr (.inr hp)
  | enterTransmit | enterReceive | sendLastAll => exact absurd hf (not_fails_of_success rfl)
  | leaveReceive | startSend | leaveTransmit | startRead | stall | sendMore | sendLast => exact absurd hf (not_fails_of_silent rfl)

end Sys2Proof.Machine

section
open Sys2Proof Machine Safety Words

/-- Settles O35: three phases can fail, each for its causes. -/
theorem failuresAreExactlyThese : Obligations.FailuresAreExactlyThese := by
  intro s t h hv hok
  have hf : Fails t := ⟨hv, hok⟩
  rcases (engineMove_of_engineStep h).phase_of_fails hf with hp | hp | hp
  · obtain ⟨rfl, hvalid, hcause⟩ := fails_idle hp h hf
    exact ⟨rfl, .inl ⟨rfl, hp, hvalid, hcause⟩⟩
  · obtain ⟨hr, ⟨rfl, ho⟩ | ⟨rfl, ho, hw⟩⟩ := fails_read hp h hf
    · exact ⟨rfl, .inr (.inl ⟨rfl, hp, hr, ho⟩)⟩
    · exact ⟨rfl, .inr (.inr (.inl ⟨rfl, hp, hr, ho, hw⟩))⟩
  · obtain ⟨rfl, hcause⟩ := fails_check hp h hf
    exact ⟨rfl, .inr (.inr (.inr ⟨rfl, hp, hcause⟩))⟩

end
end

section
/-! PROOFS. A frame-sending command with `all = 1` (spec/30_encoding.md R66, spec/44_serializer.md R139, R142): it ends with its last
byte. -/

namespace Sys2Proof.Machine

open Words

variable {s : State}

/-- A command with `all = 1` sends a frame. -/
theorem frameOf_ne_nil_of_hasAll {i : Instr} (p : Params) (h : hasAll i = true) : frameOf p i ≠ [] := by
  cases i with
  | buildWrite | buildWrite2 => exact List.cons_ne_nil _ _
  | _ => exact absurd h Bool.false_ne_true

/-- The selector of a command with `all = 1` is `SEL_ALL` (spec/41_direction.md R94). -/
theorem selFor_of_hasAll {i : Instr} {id : Byte} (hw : FrameWord i id) (hcur : s.cur = wordOf i) (hall : hasAll i = true) :
    selFor .transmit s = .ok (selectorAfter s i) := by
  rw [selFor_eq_ok, hcur]
  cases hm : s.cfg.dirMode with
  | shared => exact .inl ⟨rfl, (selectorAfter_shared hm i).symm⟩
  | perDevice =>
    have hsel : selectorAfter s i = s.cfg.selAll := by
      unfold selectorAfter
      rw [hm]
      exact if_pos hall
    exact .inr ⟨rfl, .inr (.inl ⟨hw.not_init, ⟨rfl, .inr (hw.all_eq.trans hall)⟩, hsel.symm⟩)⟩

end Sys2Proof.Machine

section
open Sys2Proof Machine Safety Words

/-- Settles O39: the frame is handed over, and the command ends in the step of its last byte. -/
theorem frameIsSentStayingInTransmit : Obligations.FrameIsSentStayingInTransmit := by
  intro s i p0 p1 p2 mid rest _ hs hall hr hin hpres hcount hlast
  have hf := frameOf_ne_nil_of_hasAll s.cfg hall
  obtain ⟨id, hw⟩ := frameWord_of_frameOf hf hr
  have hsel : selFor .transmit { s with cur := wordOf i } = .ok (selectorAfter s i) :=
    selFor_of_hasAll (s := { s with cur := wordOf i }) hw rfl hall
  obtain ⟨m, q, hm, h⟩ := runSteps_sendsFrame hs hf hr hin hpres hsel hcount hlast
  rw [afterLastByte, if_pos (by exact hw.all_eq.trans hall)] at h
  exact ⟨_, h, stored_writeList _ _, hm, rfl⟩

end
end

section
/-! PROOFS. What the block looks at of the word in `CUR` (spec/10_state.md R30, spec/30_encoding.md R81): two words that agree in that act
alike in every step. -/

namespace Sys2Proof.Machine

open Safety Words

variable {s : State} {w v : Word40}

/-- The state with another word in `CUR`. -/
def withCur (v : Word40) (s : State) : State := { s with cur := v }

/-- The phases of a command read nothing of its word but this: the selector of its switches, whether it only switches, its `all` bit,
whether it is a `GET_REG`, and the width of a `GET_REG` (R94, R96, R98, R140, R152). -/
structure ActAlike (p : Params) (w v : Word40) : Prop where
  selector : ∀ (d : Direction) (s : State), s.cfg = p → selFor d (withCur v s) = selFor d (withCur w s)
  switches : switchOnly v = switchOnly w
  all_eq : fieldAll v = fieldAll w
  getReg_iff : fieldOp v = opGetReg ↔ fieldOp w = opGetReg
  width_eq : fieldOp w = opGetReg → fieldDataLo v = fieldDataLo w

theorem switchOnly_commandWord {op : BitVec 4} (hT : op ≠ opSwTx) (hA : op ≠ opSwAllTx) (all : Bool) (id addr : Byte)
    (data : Word16) : switchOnly (commandWord op all id addr data) = false := by
  simp [switchOnly, hT, hA]

/-- Two words of commands that send a frame and are no `GET_REG` act alike if their other fields are the same. -/
theorem actAlike_commandWord {op op' : BitVec 4} (p : Params) (all : Bool) (id addr : Byte) (data : Word16)
    (hop : op ≠ opInit ∧ op ≠ opSwTx ∧ op ≠ opSwAllTx ∧ op ≠ opGetReg)
    (hop' : op' ≠ opInit ∧ op' ≠ opSwTx ∧ op' ≠ opSwAllTx ∧ op' ≠ opGetReg) :
    ActAlike p (commandWord op all id addr data) (commandWord op' all id addr data) := by
  obtain ⟨hI, hT, hA, hG⟩ := hop
  obtain ⟨hI', hT', hA', hG'⟩ := hop'
  exact {
    selector := fun d s _ => by simp [selFor, withCur, hI, hI', hA, hA']
    switches := (switchOnly_commandWord hT' hA' ..).trans (switchOnly_commandWord hT hA ..).symm
    all_eq := by simp
    getReg_iff := by simp [hG, hG']
    width_eq := by simp }

/-! ### The phase steps -/

theorem andThen_ite (c : Prop) [Decidable c] (x y : Result) (f : State → State) :
    andThen (if c then x else y) f = if c then andThen x f else andThen y f := apply_ite (andThen · f) c x y

@[simp] theorem readByte_withCur (buf : Buffer) (v : Word40) (s : State) (i : Nat) :
    readByte buf (withCur v s) i = readByte buf s i := by
  cases buf <;> rfl

@[simp] theorem readBytes_withCur (buf : Buffer) (v : Word40) (s : State) (i n : Nat) :
    readBytes buf (withCur v s) i n = readBytes buf s i n := by
  induction n generalizing i with
  | zero => rfl
  | succ n ih => simp [readBytes, ih]

section
variable (h : ActAlike s.cfg s.cur v)
include h

theorem swtxA_withCur : swtxA (withCur v s) = andThen (swtxA s) (withCur v) := by
  rw [swtxA, swtxA, andThen_orFault, h.selector .transmit s rfl]
  rfl

theorem swrxA_withCur : swrxA (withCur v s) = andThen (swrxA s) (withCur v) := by
  rw [swrxA, swrxA, andThen_orFault, h.selector .receive s rfl]
  rfl

theorem swtxB_withCur : swtxB (withCur v s) = andThen (swtxB s) (withCur v) := by
  have hv : switchOnly (withCur v s).cur = switchOnly s.cur := h.switches
  simp only [swtxB, andThen_next, apply_ite (withCur v), hv]
  rfl

theorem swrxB_withCur : swrxB (withCur v s) = andThen (swrxB s) (withCur v) := by
  have hv : fieldOp (withCur v s).cur = opGetReg ↔ fieldOp s.cur = opGetReg := h.getReg_iff
  by_cases ho : fieldOp s.cur = opGetReg
  · have hw : fieldDataLo (withCur v s).cur = fieldDataLo s.cur := h.width_eq ho
    simp only [swrxB, if_pos ho, if_pos (hv.2 ho), hw]
    rfl
  · simp only [swrxB, if_neg ho, if_neg (mt hv.1 ho)]
    rfl

theorem sendStep_withCur : sendStep (withCur v s) = andThen (sendStep s) (withCur v) := by
  have hv : fieldAll (withCur v s).cur = fieldAll s.cur := h.all_eq
  rw [sendStep, sendStep, andThen_ite, andThen_orFault, readByte_withCur, hv]
  simp only [andThen_next, apply_ite (withCur v)]
  rfl

theorem checkStep_withCur : checkStep (withCur v s) = andThen (checkStep s) (withCur v) := by
  have hv : fieldOp (withCur v s).cur = opGetReg ↔ fieldOp s.cur = opGetReg := h.getReg_iff
  unfold checkStep getRegFinish
  simp only [andThen_orFault, readBytes_withCur, readByte_withCur]
  refine congrArg _ (funext fun l => ?_)
  split
  · rw [andThen_orFault]
    refine congrArg _ (funext fun len => ?_)
    by_cases ho : fieldOp s.cur = opGetReg
    · have hval : registerValue (withCur v s) = registerValue s := by
        simp only [registerValue, readByte_withCur, show fieldDataLo (withCur v s).cur = fieldDataLo s.cur from h.width_eq ho]
      simp only [if_pos ho, if_pos (hv.2 ho), hval, andThen_orFault]
      rfl
    · simp only [if_neg ho, if_neg (mt hv.1 ho)]
      rfl
  · rfl

end

theorem classify_withCur (v : Word40) (b : Byte) (s : State) : classify b (withCur v s) = andThen (classify b s) (withCur v) := by
  have hw (f : State → Result) :
      orFault (writeAsm (withCur v s) s.cnt b) f = orFault (writeAsm s s.cnt b) fun t => f (withCur v t) := by
    by_cases hn : s.cnt < s.cfg.capDepth
    · rw [writeAsm, if_pos (by exact hn), writeAsm, if_pos (by exact hn)]
      rfl
    · rw [writeAsm, if_neg (by exact hn), writeAsm, if_neg (by exact hn)]
      rfl
  rw [classify, classify, andThen_ite, andThen_ite, andThen_orFault]
  exact ite_congr rfl (fun _ => rfl) fun _ => ite_congr rfl (fun _ => rfl) fun _ => hw _

/-- The reader does not look at `CUR`. -/
theorem readStep_withCur (v : Word40) (s : State) : readStep (withCur v s) = andThen (readStep s) (withCur v) := by
  rw [readStep, readStep, andThen_ite, andThen_ite, andThen_ite, andThen_orFault]
  refine ite_congr rfl (fun _ => ?_) fun _ => rfl
  rw [readByte_withCur]
  exact congrArg _ (funext fun b => classify_withCur v b { s with rd := s.rd + 1, waitc := 0 })

/-! ### The engine step -/

/-- A step does the same with the word `v` in `CUR` but that it leaves `v` there, or it writes `CUR` itself. -/
def IgnoresCur (f : State → Result) (v : Word40) (s : State) : Prop :=
  f (withCur v s) = f s ∨ (f (withCur v s) = andThen (f s) (withCur v) ∧ ∀ u, f s = .next u → u.cur = s.cur ∧ u.cfg = s.cfg)

/-- A busy engine does not write `CUR` (R57). -/
theorem EngineMove.cur_eq_of_busy {t : State} (hm : EngineMove s t) (hp : s.ph ≠ .idle) : t.cur = s.cur := by
  cases hm.frameMove with
  | kept hcur | sent _ _ _ _ hcur => exact hcur
  | latched hq | built _ _ _ hq => exact absurd hq hp

theorem engineStep_withCur_busy (h : ActAlike s.cfg s.cur v) (hs : s.ph ≠ .idle) :
    engineStep (withCur v s) = andThen (engineStep s) (withCur v) := by
  cases hp : s.ph with
  | idle => exact absurd hp hs
  | swtxA => rw [engineStep_swtxA hp, engineStep_swtxA (s := withCur v s) hp]; exact swtxA_withCur (s := clearStrobe s) h
  | swtxB => rw [engineStep_swtxB hp, engineStep_swtxB (s := withCur v s) hp]; exact swtxB_withCur (s := clearStrobe s) h
  | send => rw [engineStep_send hp, engineStep_send (s := withCur v s) hp]; exact sendStep_withCur (s := clearStrobe s) h
  | swrxA => rw [engineStep_swrxA hp, engineStep_swrxA (s := withCur v s) hp]; exact swrxA_withCur (s := clearStrobe s) h
  | swrxB => rw [engineStep_swrxB hp, engineStep_swrxB (s := withCur v s) hp]; exact swrxB_withCur (s := clearStrobe s) h
  | read => rw [engineStep_read hp, engineStep_read (s := withCur v s) hp]; exact readStep_withCur v (clearStrobe s)
  | check => rw [engineStep_check hp, engineStep_check (s := withCur v s) hp]; exact checkStep_withCur (s := clearStrobe s) h

/-- An acceptance overwrites the word in `CUR` (R29). -/
theorem acceptAction_withCur {i : Instr} (hc : isCommand i = true) (v : Word40) (s : State) :
    acceptAction i (withCur v s) = acceptAction i s := by
  cases i with
  | frameReadReq | frameWrite1Req | frameWrite2Req | frameResponse => exact absurd hc Bool.false_ne_true
  | _ => rfl

theorem ignoresCur_of_next {f : State → Result} {t : State} (h : f s = .next t) (h' : f (withCur v s) = .next (withCur v t))
    (hcur : t.cur = s.cur) (hcfg : t.cfg = s.cfg) : IgnoresCur f v s := by
  refine .inr ⟨by rw [h', h, andThen_next], fun u hu => ?_⟩
  obtain rfl := Host.Outcome.next.inj (h.symm.trans hu)
  exact ⟨hcur, hcfg⟩

/-- An idle engine overwrites `CUR` where it accepts a command, and leaves it where it does nothing or refuses (R29, R64). -/
theorem engineStep_ignoresCur_idle (v : Word40) (hs : s.ph = .idle) : IgnoresCur engineStep v s := by
  cases hv : s.pins.cmdValid with
  | false => exact ignoresCur_of_next (engineStep_quiet hs hv) (engineStep_quiet (s := withCur v s) hs hv) rfl rfl
  | true =>
    by_cases hd : ∃ i, decodeCommand s.pins.cmdWord = .ok i
    · obtain ⟨i, hd⟩ := hd
      have hc := isCommand_of_decodeCommand hd
      have he := engineStep_decoded hv hd
      have he' := engineStep_decoded (s := withCur v s) hv hd
      by_cases hr : InRange s.cfg i
      · refine .inl ?_
        rw [he, he', exec_of_inRange hc hs hr, exec_of_inRange (s := withCur v s) hc hs hr]
        exact congrArg _ (acceptAction_withCur hc v (clearStrobe s))
      · exact ignoresCur_of_next (he.trans (exec_of_not_inRange hc hs hr))
          (he'.trans (exec_of_not_inRange (s := withCur v s) hc hs hr)) rfl rfl
    · exact ignoresCur_of_next (engineStep_refused hs hv (not_exists.1 hd))
        (engineStep_refused (s := withCur v s) hs hv (not_exists.1 hd)) rfl rfl

theorem engineStep_ignoresCur (h : ActAlike s.cfg s.cur v) : IgnoresCur engineStep v s := by
  by_cases hs : s.ph = .idle
  · exact engineStep_ignoresCur_idle v hs
  · refine .inr ⟨engineStep_withCur_busy h hs, fun u hu => ?_⟩
    have hm := engineMove_of_engineStep hu
    exact ⟨hm.cur_eq_of_busy hs, hm.cfg_eq⟩

/-! ### The step and the run -/

theorem rxStep_withCur (valid : Bool) (b : Byte) (v : Word40) (s : State) :
    rxStep valid b (withCur v s) = withCur v (rxStep valid b s) := by
  cases valid with
  | false => rfl
  | true =>
    rw [rxStep_true, rxStep_true, capture, capture, apply_ite (withCur v), apply_ite (withCur v)]
    rfl

theorem receiveBytes_withCur (l : List Byte) (v : Word40) (s : State) :
    receiveBytes l (withCur v s) = withCur v (receiveBytes l s) := by
  induction l generalizing s with
  | nil => rfl
  | cons b rest ih => rw [receiveBytes_cons, receiveBytes_cons, rxStep_withCur, ih]

/-- What follows and leaves `CUR` alone keeps this. -/
theorem IgnoresCur.followedBy {f : State → Result} {g : State → State} (h : IgnoresCur f v s)
    (hg : ∀ u, g (withCur v u) = withCur v (g u)) (hkeep : ∀ u, (g u).cur = u.cur ∧ (g u).cfg = u.cfg) :
    IgnoresCur (fun u => andThen (f u) g) v s := by
  rcases h with heq | ⟨heq, hf⟩
  · exact .inl (congrArg (andThen · g) heq)
  · refine .inr ⟨(congrArg (andThen · g) heq).trans ?_, fun u hu => ?_⟩
    · dsimp only
      cases f s with
      | next u => exact congrArg _ (hg u)
      | _ => rfl
    · obtain ⟨t, ht, rfl⟩ := andThen_eq_next.1 hu
      obtain ⟨hcur, hcfg⟩ := hkeep t
      obtain ⟨hcur', hcfg'⟩ := hf t ht
      exact ⟨hcur.trans hcur', hcfg.trans hcfg'⟩

theorem step_ignoresCur (h : ActAlike s.cfg s.cur v) : IgnoresCur step v s := by
  cases he : nextEvent s with
  | line l =>
    exact ignoresCur_of_next (t := receiveBytes l (advance s)) (step_eq_next.2 (.inl ⟨l, he, rfl⟩))
      (step_eq_next.2 (.inl ⟨l, he, receiveBytes_withCur l v (advance s)⟩)) (by simp) (by simp)
  | cycle p =>
    cases hp : p.rst with
    | true =>
      have hreset := step_eq_next.2 (.inr (.inl ⟨p, he, hp, rfl⟩))
      refine .inl (((step_eq_next (s := withCur v s)).2 (.inr (.inl ⟨p, he, hp, ?_⟩))).trans hreset.symm)
      cases p.rxValid <;> rfl
    | false =>
      have hstep := step_of_engineNext (s := s) ⟨he, hp⟩
      have hstep' := step_of_engineNext (s := withCur v s) ⟨he, hp⟩
      have hcycle := (engineStep_ignoresCur (s := sample p (advance s)) h).followedBy (g := rxStep p.rxValid p.rxData)
        (rxStep_withCur _ _ v) fun u => ⟨by simp, by simp⟩
      rw [IgnoresCur, hstep, hstep']
      exact hcycle

theorem sameOutcomeButCur_refl (r : Result) : SameOutcomeButCur r r := by cases r <;> rfl

/-- Two states that differ in `CUR` alone, in words that act alike, stay the same but for `CUR`. -/
theorem runSteps_withCur (h : ActAlike s.cfg s.cur v) (k : Nat) :
    SameOutcomeButCur (runSteps k s) (runSteps k (withCur v s)) := by
  induction k generalizing s with
  | zero => exact rfl
  | succ k ih =>
    rw [runSteps, runSteps]
    rcases step_ignoresCur h with heq | ⟨heq, hkeep⟩
    · rw [heq]
      exact sameOutcomeButCur_refl _
    · rw [heq]
      cases hs : step s with
      | fault f => rfl
      | refused r => rfl
      | next u =>
        obtain ⟨hcur, hcfg⟩ := hkeep u hs
        exact ih (by rwa [hcur, hcfg])

/-- Two commands that send one frame with words that act alike have the same effect but for `CUR`, whatever follows. -/
theorem sameEffectButCur {i j : Instr} (hs : s.ph = .idle) (hf : frameOf s.cfg i ≠ []) (hj : frameOf s.cfg j = frameOf s.cfg i)
    (hr : InRange s.cfg j ↔ InRange s.cfg i) (h : ActAlike s.cfg (wordOf i) (wordOf j)) :
    ∃ t u, exec i s = .next t ∧ exec j s = .next u ∧ ∀ k, SameOutcomeButCur (runSteps k t) (runSteps k u) := by
  have hfj : frameOf s.cfg j ≠ [] := hj ▸ hf
  by_cases hi : InRange s.cfg i
  · refine ⟨_, _, exec_acceptFrame hs hf hi, exec_acceptFrame hs hfj (hr.2 hi), ?_⟩
    rw [hj]
    exact runSteps_withCur h
  · exact ⟨_, _, exec_of_not_inRange (isCommand_of_frameOf hf) hs hi,
      exec_of_not_inRange (isCommand_of_frameOf hfj) hs (mt hr.1 hi), fun k => sameOutcomeButCur_refl _⟩

theorem wordOf_eq {i : Instr} {w : Word40} (hc : isCommand i = true) (h : encode (Config.defaults 1) i = .command w) :
    wordOf i = w := Image.command.inj ((encode_eq_wordOf _ hc).symm.trans h)

end Sys2Proof.Machine

section
open Sys2Proof Machine Safety Words

/-- Settles O49: the words differ in the operation code alone, and no phase asks for it beyond what these have in common. -/
theorem setRegActsAsBuildWrite : Obligations.SetRegActsAsBuildWrite := by
  intro s id addr hs
  refine ⟨fun val => sameEffectButCur hs (List.cons_ne_nil _ _) rfl Iff.rfl ?_,
    fun val => sameEffectButCur hs (List.cons_ne_nil _ _) rfl Iff.rfl ?_⟩
  · rw [wordOf_eq (i := .setReg id addr val) rfl rfl, wordOf_eq (i := .buildWrite false id addr val) rfl rfl]
    exact actAlike_commandWord s.cfg false id addr (zext16 val) (by decide) (by decide)
  · rw [wordOf_eq (i := .setReg2 id addr val) rfl rfl, wordOf_eq (i := .buildWrite2 false id addr val) rfl rfl]
    exact actAlike_commandWord s.cfg false id addr val (by decide) (by decide)

end
end

section
/-! PROOFS. The checksum as a number (spec/40_checksum.md R86, R87, R91), and the frame that is sent from reset on (R143): a
checksum and a test of it see only the total of the covered bytes, so everything here is about totals modulo 256. -/

namespace Sys2Proof.Words

open Machine

@[simp] theorem total_cons (b : Byte) (l : List Byte) : total (b :: l) = b.toNat + total l := List.sum_cons

@[simp] theorem total_append (l k : List Byte) : total (l ++ k) = total l + total k := by simp [total]

theorem total_eq_of_perm {l k : List Byte} (h : l.Perm k) : total l = total k := (h.map _).sum_eq

/-- The complement of a byte is its distance from 255 (R86). -/
theorem csum_toNat (l : List Byte) : (csum l).toNat = 255 - total l % 256 := by
  rw [csum, BitVec.toNat_not, sum8_toNat]
  rfl

theorem csum_eq_of_total_eq {l k : List Byte} (h : total l = total k) : csum l = csum k :=
  BitVec.eq_of_toNat_eq (by rw [csum_toNat, csum_toNat, h])

theorem frameSumOk_eq_of_total_eq {l k : List Byte} (h : total l = total k) : frameSumOk l = frameSumOk k := by
  rw [Bool.eq_iff_iff, frameSumOk_iff_total, frameSumOk_iff_total, h]

/-- Two bytes in one place whose totals agree modulo 256 are the same byte: neither reaches 256. -/
theorem eq_of_total_mod_eq {l k : List Byte} {b c : Byte} (h : total (l ++ b :: k) % 256 = total (l ++ c :: k) % 256) : b = c := by
  have hb := b.isLt
  have hc := c.isLt
  simp only [total_append, total_cons] at h
  exact BitVec.eq_of_toNat_eq (by omega)

end Sys2Proof.Words

namespace Sys2Proof.Safety

open Machine Words

variable {s : State}

/-- The bytes read from index 2 of any array are its window. -/
theorem windowBytes_of_readBytes_bufferOf {buf : Buffer} {n : Nat} {l : List Byte} (hl : readBytes buf s 2 (n - 2) = .ok l) :
    windowBytes (bufferOf buf s) n = l := by
  obtain ⟨hlen, hr⟩ := readBytes_eq_ok.1 hl
  exact windowBytes_eq_of_read hlen fun k hk => (readByte_eq_ok.1 (hr k hk)).2.trans (List.getElem?_eq_getElem hk).symm

/-- A pending frame is read from its id through its checksum, and sums to 255 (R143). -/
theorem pendingFrame_total (hi : Inv s) (hp : FramePending s) :
    ∃ l, readBytes .txbuf s 2 (s.txlen - 2) = .ok l ∧ l.length = s.txlen - 2 ∧ total l % 256 = 255 := by
  obtain ⟨hlen, hw⟩ := hi.framed hp
  obtain ⟨l, hl⟩ := readBytes_of_written (buf := .txbuf) (i := 2) (n := s.txlen - 2)
    (show s.txlen ≤ Config.txDepth by simp only [Config.txDepth]; omega) hw (by omega)
  have hsum := hi.frameSummed hp
  rw [show windowBytes s.txbuf s.txlen = l from windowBytes_of_readBytes_bufferOf hl] at hsum
  exact ⟨l, hl, (readBytes_eq_ok.1 hl).1, frameSumOk_iff_total.1 hsum⟩

end Sys2Proof.Safety

section
open Sys2Proof Machine Safety Words

/-- Settles O55: the invariant holds along every run from reset, and in `SEND` a frame is pending. -/
theorem emittedFramesSumTo255 : Obligations.EmittedFramesSumTo255 :=
  fun _ trace _ _ hp h hsend => pendingFrame_total (inv_runSteps (inv_resetWith hp trace) h) (.inr hsend)

/-- Settles O57: a checksum is a function of the total, which a permutation keeps. -/
theorem checksumOfAList : Obligations.ChecksumOfAList :=
  ⟨csum_toNat, fun _ _ h => csum_eq_of_total_eq (total_eq_of_perm h), rfl⟩

/-- Settles O58: both terms of the sum are below 256, so it is 255 modulo 256 only if it is 255. -/
theorem checksumTestIsEquivalent : Obligations.ChecksumTestIsEquivalent := by
  intro c l
  have hc := c.isLt
  rw [← BitVec.toNat_inj, csum_toNat]
  omega

/-- Settles O59: with both bytes accepted the totals agree modulo 256, so the bytes are equal; a permutation keeps the total. -/
theorem singleChangesAreDetected : Obligations.SingleChangesAreDetected := by
  refine ⟨fun l k b c hne hb => Bool.eq_false_iff.2 fun hc => hne ?_, fun l k h => frameSumOk_eq_of_total_eq (total_eq_of_perm h)⟩
  exact eq_of_total_mod_eq ((frameSumOk_iff_total.1 hb).trans (frameSumOk_iff_total.1 hc).symm)

end
end

section
/-! PROOFS. The direction arbiter (spec/41_direction.md R94 to R102): the words of the commands that switch, the selector of each switch,
the acceptance and the two steps of a switch, each as the state after it. -/

namespace Sys2Proof.Machine

open Safety Words

variable {s : State}

/-! ### The words and the selectors -/

theorem wordOf_swTx (id : Byte) : wordOf (.swTx id) = commandWord opSwTx false id 0 0 := wordOf_eq rfl rfl
theorem wordOf_swRx (id : Byte) : wordOf (.swRx id) = commandWord opSwRx false id 0 0 := wordOf_eq rfl rfl
theorem wordOf_swAllTx : wordOf .swAllTx = commandWord opSwAllTx false 0 0 0 := wordOf_eq rfl rfl
theorem wordOf_init (baud : Word32) : wordOf (.init baud) = initWord baud := wordOf_eq rfl rfl

/-- `SelFor` as the statements write it out is what the model computes (R94). -/
theorem selFor_of_selectorFor {d : Direction} {v : Byte} (h : SelectorFor s d v) : selFor d s = .ok v := by
  rw [selFor_eq_ok]
  rcases h with ⟨hm, hv⟩ | ⟨hm, hop, hv⟩ | ⟨hm, hop, hall, hv⟩ | ⟨hm, hop, hall, hv⟩
  · exact .inl ⟨hm, hv.symm⟩
  · exact .inr ⟨hm, .inl ⟨hop, hv.symm⟩⟩
  · exact .inr ⟨hm, .inr (.inl ⟨hop, hall, hv.symm⟩)⟩
  · exact .inr ⟨hm, .inr (.inr ⟨hop, hall, hv⟩)⟩

/-- The selector of a command that names an id, that is of a word that is neither an `INIT` nor a switch of all, is the table's entry for
it in `PER_DEVICE` mode. -/
theorem selFor_of_commandWord {i : Instr} {op : BitVec 4} {id : Byte} (hlegal : s.cfg.Legal) (hid : id ≠ 0xFF)
    (hcur : s.cur = wordOf i) (hw : wordOf i = commandWord op false id 0 0) (hI : op ≠ opInit) (hA : op ≠ opSwAllTx)
    (hsel : s.cfg.dirMode = .perDevice → selectorAfter s i = (s.cfg.sel[id.toNat]?).getD 0) (d : Direction) :
    selFor d s = .ok (selectorAfter s i) := by
  rw [selFor_eq_ok, hcur, hw]
  cases hm : s.cfg.dirMode with
  | shared => exact .inl ⟨rfl, (selectorAfter_shared hm i).symm⟩
  | perDevice =>
    refine .inr ⟨rfl, .inr (.inr ⟨by simpa using hI, by simp [hA], ?_⟩)⟩
    rw [fieldId_commandWord, hsel hm, List.getElem?_eq_getElem (id_lt_sel_length hlegal hid), Option.getD_some]

theorem selFor_swTx {id : Byte} (hlegal : s.cfg.Legal) (hid : id ≠ 0xFF) (hcur : s.cur = wordOf (.swTx id)) (d : Direction) :
    selFor d s = .ok (selectorAfter s (.swTx id)) := by
  refine selFor_of_commandWord hlegal hid hcur (wordOf_swTx id) (by decide) (by decide) (fun hm => ?_) d
  unfold selectorAfter
  rw [hm]
  rfl

theorem selFor_swRx {id : Byte} (hlegal : s.cfg.Legal) (hid : id ≠ 0xFF) (hcur : s.cur = wordOf (.swRx id)) (d : Direction) :
    selFor d s = .ok (selectorAfter s (.swRx id)) := by
  refine selFor_of_commandWord hlegal hid hcur (wordOf_swRx id) (by decide) (by decide) (fun hm => ?_) d
  unfold selectorAfter
  rw [hm]
  rfl

/-- The selector of a switch of all to transmit is `SEL_ALL` (R94). -/
theorem selFor_swAllTx (hcur : s.cur = wordOf .swAllTx) : selFor .transmit s = .ok (selectorAfter s .swAllTx) := by
  have hop : fieldOp s.cur = opSwAllTx := by rw [hcur, wordOf_swAllTx, fieldOp_commandWord]
  rw [selFor_eq_ok, hop]
  cases hm : s.cfg.dirMode with
  | shared => exact .inl ⟨rfl, (selectorAfter_shared hm _).symm⟩
  | perDevice =>
    refine .inr ⟨rfl, .inr (.inl ⟨by decide, ⟨rfl, .inl rfl⟩, ?_⟩)⟩
    unfold selectorAfter
    rw [hm]
    rfl

/-- The selector of an `INIT` is 0 (R94). -/
theorem selFor_init {baud : Word32} (hcur : s.cur = wordOf (.init baud)) (d : Direction) :
    selFor d s = .ok (selectorAfter s (.init baud)) := by
  have hop : fieldOp s.cur = opInit := by rw [hcur, wordOf_init, fieldOp_initWord]
  rw [selFor_eq_ok, hop]
  cases hm : s.cfg.dirMode with
  | shared => exact .inl ⟨rfl, (selectorAfter_shared hm _).symm⟩
  | perDevice =>
    refine .inr ⟨rfl, .inl ⟨rfl, ?_⟩⟩
    unfold selectorAfter
    rw [hm]
    rfl

/-! ### The acceptance -/

theorem acceptAction_swTx (id : Byte) (s : State) :
    acceptAction (.swTx id) s = { s with cur := wordOf (.swTx id), ph := .swtxA } := by
  rw [wordOf_swTx]
  rfl

theorem acceptAction_swRx (id : Byte) (s : State) :
    acceptAction (.swRx id) s = { s with cur := wordOf (.swRx id), ph := .swrxA } := by
  rw [wordOf_swRx]
  rfl

theorem acceptAction_swAllTx (s : State) : acceptAction .swAllTx s = { s with cur := wordOf .swAllTx, ph := .swtxA } := by
  rw [wordOf_swAllTx]
  rfl

theorem acceptAction_init (baud : Word32) (s : State) : acceptAction (.init baud) s = { s with
    cur := wordOf (.init baud), baud := baud, cnt := 0, frameValid := false, lenOk := false, ph := .swrxA } := by
  rw [wordOf_init]
  rfl

theorem exec_swTx {id : Byte} (hs : s.ph = .idle) (hid : id ≠ 0xFF) :
    exec (.swTx id) s = .next { s with cur := wordOf (.swTx id), ph := .swtxA, rspValid := false } := by
  rw [exec_of_inRange (i := .swTx id) rfl hs hid, acceptAction_swTx]
  rfl

theorem exec_swRx {id : Byte} (hs : s.ph = .idle) (hid : id ≠ 0xFF) :
    exec (.swRx id) s = .next { s with cur := wordOf (.swRx id), ph := .swrxA, rspValid := false } := by
  rw [exec_of_inRange (i := .swRx id) rfl hs hid, acceptAction_swRx]
  rfl

theorem exec_swAllTx (hs : s.ph = .idle) :
    exec .swAllTx s = .next { s with cur := wordOf .swAllTx, ph := .swtxA, rspValid := false } := by
  rw [exec_of_inRange (i := .swAllTx) rfl hs trivial, acceptAction_swAllTx]
  rfl

/-! ### The steps of the switches -/

theorem switchOnly_iff {w : Word40} : switchOnly w = true ↔ fieldOp w = opSwTx ∨ fieldOp w = opSwAllTx := by
  simp [switchOnly]

/-- The end of a switch to transmit: a command that only switches succeeds, any other goes on to `SEND` (R96). -/
theorem engineStep_swtxB_eq (hs : s.ph = .swtxB) : engineStep s = .next
    (if fieldOp s.cur = opSwTx ∨ fieldOp s.cur = opSwAllTx
      then ended true .none 0 { s with txEn := true, dir := .transmit, wr := 0, rd := 0, ovf := false }
      else { s with txEn := true, dir := .transmit, wr := 0, rd := 0, ovf := false, ph := .send, rspValid := false }) := by
  rw [engineStep_swtxB hs]
  split
  · exact swtxB_eq_next.2 (.inl ⟨switchOnly_iff.2 ‹_›, rfl⟩)
  · exact swtxB_eq_next.2 (.inr ⟨Bool.eq_false_iff.2 (mt switchOnly_iff.1 ‹_›), rfl⟩)

/-- The end of a switch to receive: the reader of a `GET_REG` starts, any other command succeeds (R98, R115). -/
theorem engineStep_swrxB_eq (hs : s.ph = .swrxB) : engineStep s = .next
    (if fieldOp s.cur = opGetReg
      then { s with rxEn := true, dir := .receive, wr := 0, rd := 0, ovf := false, expect := (fieldDataLo s.cur).toNat + 6,
                    cnt := 0, waitc := 0, frameValid := false, lenOk := false, ph := .read, rspValid := false }
      else ended true .none 0 { s with rxEn := true, dir := .receive, wr := 0, rd := 0, ovf := false }) := by
  rw [engineStep_swrxB hs]
  split
  · exact swrxB_eq_next.2 (.inl ⟨‹_›, rfl⟩)
  · exact swrxB_eq_next.2 (.inr ⟨‹_›, rfl⟩)

theorem engineStep_swtxA_of_selector {v : Byte} (hs : s.ph = .swtxA) (hv : selFor .transmit s = .ok v) :
    engineStep s = .next { s with rxEn := false, auxSel := v, ph := .swtxB, rspValid := false } :=
  (engineStep_swtxA hs).trans (swtxA_eq_next.2 ⟨v, hv, rfl⟩)

theorem engineStep_swrxA_of_selector {v : Byte} (hs : s.ph = .swrxA) (hv : selFor .receive s = .ok v) :
    engineStep s = .next { s with txEn := false, auxSel := v, ph := .swrxB, rspValid := false } :=
  (engineStep_swrxA hs).trans (swrxA_eq_next.2 ⟨v, hv, rfl⟩)

end Sys2Proof.Machine

section
open Sys2Proof Machine Safety Words

/-- Settles O9: each is in range, and its acceptance action only latches its word and picks the phase. -/
theorem switchCommandsAreAccepted : Obligations.SwitchCommandsAreAccepted := fun _ hs =>
  ⟨fun _ hid => ⟨exec_swTx hs hid, exec_swRx hs hid⟩, exec_swAllTx hs⟩

/-- Settles O20: the selector as R94 writes it out is the model's, and the second step is by the operation code. -/
theorem switchToTransmitSteps : Obligations.SwitchToTransmitSteps := fun _ =>
  ⟨fun _ hs hv => engineStep_swtxA_of_selector hs (selFor_of_selectorFor hv), engineStep_swtxB_eq⟩

/-- Settles O21: the selector as R94 writes it out is the model's, and the second step is by the operation code. -/
theorem switchToReceiveSteps : Obligations.SwitchToReceiveSteps := fun _ =>
  ⟨fun _ hs hv => engineStep_swrxA_of_selector hs (selFor_of_selectorFor hv), engineStep_swrxB_eq⟩

end
end

section
/-! PROOFS. The commands that only switch, from the acceptance to their end (spec/41_direction.md R99 to R102,
spec/45_register_access_init.md R156): what the cycles of a switch catch, and the three cycles put together. -/

namespace Sys2Proof.Machine

open Safety Words

variable {s : State}

/-! ### The cycle of an acceptance -/

/-- An acceptance leaves the receiver and the buffer as they were. -/
theorem acceptAction_untouched (i : Instr) (s : State) :
    (acceptAction i s).cap = s.cap ∧ (acceptAction i s).wr = s.wr ∧ (acceptAction i s).ovf = s.ovf ∧
      (acceptAction i s).rxEn = s.rxEn ∧ (acceptAction i s).cfg = s.cfg ∧ (acceptAction i s).rxin = s.rxin := by
  cases i <;> simp [acceptAction, acceptSend, buildFrame]

/-- An acceptance does not look at what belongs to the environment. -/
theorem acceptAction_environment (i : Instr) (s : State) (l : List Event) (n : Nat) (p : Pins) {t : State}
    (h : acceptAction i s = t) : acceptAction i { s with inputs := l, clock := n, pins := p } =
      { t with inputs := l, clock := n, pins := p } := by
  subst h
  cases i <;> rfl

/-- The cycle in which a command in range is presented: its acceptance action, and a byte of that cycle may still be caught. -/
theorem step_accept {i : Instr} {t : State} {p : Pins} {rest : List Event} (hs : s.ph = .idle) (hc : isCommand i = true)
    (hr : InRange s.cfg i) (h : s.inputs = .cycle p :: rest) (hp : p.rst = false) (hv : p.cmdValid = true)
    (hw : p.cmdWord = wordOf i) (ht : acceptAction i (clearStrobe s) = t) : ∃ m o, Stored m s.cap s.wr (caught s [p]) ∧
      step s = .next { t with
        cap := m, wr := s.wr + (caught s [p]).length, ovf := o, rxin := s.rxin ++ delivered [p], inputs := rest,
        clock := s.clock + 1, pins := p } := by
  obtain ⟨hcap, hwr, hovf, hrx, hcfg, hrxin⟩ := acceptAction_untouched i (clearStrobe s)
  rw [ht] at hcap hwr hovf hrx hcfg hrxin
  obtain ⟨m, hm, hu⟩ := rxStep_after (s := s) (p := p) (u := { t with inputs := rest, clock := s.clock + 1, pins := p })
    hcap hwr hovf hrx hcfg hrxin
  have he := exec_of_inRange (s := { s with inputs := rest, clock := s.clock + 1, pins := p }) hc hs hr
  have ha := acceptAction_environment i (clearStrobe s) rest (s.clock + 1) p ht
  refine ⟨m, s.ovf || (s.rxEn && p.rxValid && decide (s.cfg.capDepth ≤ s.wr)), hm, ?_⟩
  rw [step_presented h hp hv (hw ▸ decodeCommand_wordOf hc), he, andThen_next]
  exact congrArg Host.Outcome.next ((congrArg _ ha).trans hu)

/-! ### What is caught in several cycles -/

theorem stored_append {m m1 m0 : Memory} {i : Nat} {l k : List Byte} (hl : Stored m1 m0 i l) (hk : Stored m m1 (i + l.length) k) :
    Stored m m0 i (l ++ k) := by
  intro j
  rw [hk j, hl j, List.length_append]
  by_cases h1 : j < i
  · simp [h1, Nat.lt_add_right l.length h1]
  · by_cases h2 : j < i + l.length
    · have hj : j - i < l.length := by omega
      simp [h1, h2, show j < i + (l.length + k.length) by omega, List.getElem?_append_left hj]
    · have hj : l.length ≤ j - i := by omega
      simp [h1, h2, Nat.add_assoc, List.getElem?_append_right hj, Nat.sub_sub]

/-- What later cycles catch goes on where the first ones left `WR`, with the receiver as it was. -/
theorem caught_append {u : State} {l : List Pins} (k : List Pins) (hrx : u.rxEn = s.rxEn) (hcfg : u.cfg = s.cfg)
    (hwr : u.wr = s.wr + (caught s l).length) : caught s (l ++ k) = caught s l ++ caught u k := by
  cases hr : s.rxEn with
  | false => simp [caught, hrx, hr]
  | true =>
    have hroom : s.cfg.capDepth - u.wr = s.cfg.capDepth - s.wr - (delivered l).length := by
      rw [caught, if_pos hr, List.length_take] at hwr
      omega
    simp only [caught, hrx, hcfg, hr, if_true, delivered_append, List.take_append, hroom]

theorem stored_caught_append {u : State} {m m1 m0 : Memory} {l k : List Pins} (hl : Stored m1 m0 s.wr (caught s l))
    (hk : Stored m m1 u.wr (caught u k)) (hrx : u.rxEn = s.rxEn) (hcfg : u.cfg = s.cfg)
    (hwr : u.wr = s.wr + (caught s l).length) : Stored m m0 s.wr (caught s (l ++ k)) := by
  rw [caught_append k hrx hcfg hwr]
  rw [hwr] at hk
  exact stored_append hl hk

/-! ### Two cycles from the accepted command to its end -/

/-- Two cycles from the accepted switch to Transmit: the receiver is off before anything of them arrives. -/
theorem runSteps_acceptedToTransmit {v : Byte} {p1 p2 : Pins} {rest : List Event} (hs : s.ph = .swtxA)
    (ho : fieldOp s.cur = opSwTx ∨ fieldOp s.cur = opSwAllTx) (h : s.inputs = cycles [p1, p2] ++ rest) (hreset : NoReset [p1, p2])
    (hv : selFor .transmit s = .ok v) : runSteps 2 s = .next (ended true .none 0 { s with
      dir := .transmit, txEn := true, rxEn := false, auxSel := v, wr := 0, rd := 0, ovf := false,
      rxin := s.rxin ++ delivered [p1, p2], inputs := rest, pins := p2, clock := s.clock + 2 }) := by
  have h1 := step_leaveReceive (rest := .cycle p2 :: rest) h (hreset p1 (by simp)) hs hv
  rw [runSteps_succ_of_step h1]
  refine runSteps_one ?_
  rw [step_cycle rfl (hreset p2 (by simp)), engineStep_swtxB_eq rfl, if_pos (by exact ho), andThen_next, rxStep_off rfl,
    delivered_cons p1 [p2], ← List.append_assoc]
  rfl

/-- The cycle of `SWRX_A`: the receiver stays as it was, so a byte of that cycle may still be caught (R97, R105). -/
theorem step_leaveTransmit_caught {v : Byte} {p : Pins} {rest : List Event} (h : s.inputs = .cycle p :: rest) (hp : p.rst = false)
    (hs : s.ph = .swrxA) (hv : selFor .receive s = .ok v) : ∃ m o, Stored m s.cap s.wr (caught s [p]) ∧
      step s = .next { s with
        txEn := false, auxSel := v, ph := .swrxB, rspValid := false, cap := m, wr := s.wr + (caught s [p]).length, ovf := o,
        rxin := s.rxin ++ delivered [p], inputs := rest, pins := p, clock := s.clock + 1 } := by
  obtain ⟨m, hm, hrx⟩ := rxStep_after (s := s) (p := p) (u := { s with
    inputs := rest, clock := s.clock + 1, pins := p, txEn := false, auxSel := v, ph := .swrxB, rspValid := false })
    rfl rfl rfl rfl rfl rfl
  refine ⟨m, s.ovf || (s.rxEn && p.rxValid && decide (s.cfg.capDepth ≤ s.wr)), hm, ?_⟩
  rw [step_cycle h hp, engineStep_swrxA_of_selector (by exact hs) (by exact hv), andThen_next]
  exact congrArg Host.Outcome.next hrx

/-- Two cycles from the accepted switch to Receive: if the receiver was on, a byte of the first one is still stored; one of the second is
the first in the emptied buffer. -/
theorem runSteps_acceptedToReceive {v : Byte} {p1 p2 : Pins} {rest : List Event} (hs : s.ph = .swrxA) (ho : fieldOp s.cur ≠ opGetReg)
    (hdepth : 0 < s.cfg.capDepth) (h : s.inputs = cycles [p1, p2] ++ rest) (hreset : NoReset [p1, p2])
    (hv : selFor .receive s = .ok v) : ∃ m m', Stored m s.cap s.wr (caught s [p1]) ∧ Stored m' m 0 (delivered [p2]) ∧
      runSteps 2 s = .next (ended true .none 0 { s with
        dir := .receive, txEn := false, rxEn := true, auxSel := v, wr := if p2.rxValid then 1 else 0, rd := 0, ovf := false,
        cap := m', rxin := s.rxin ++ delivered [p1, p2], inputs := rest, pins := p2, clock := s.clock + 2 }) := by
  obtain ⟨m, o, hm, h1⟩ := step_leaveTransmit_caught (rest := .cycle p2 :: rest) h (hreset p1 (by simp)) hs hv
  obtain ⟨m', hm', h2⟩ := step_enterReceive (p := p2) (rest := rest) (s := { s with
    txEn := false, auxSel := v, ph := .swrxB, rspValid := false, cap := m, wr := s.wr + (caught s [p1]).length,
    ovf := o, rxin := s.rxin ++ delivered [p1], inputs := .cycle p2 :: rest, pins := p1, clock := s.clock + 1 })
    rfl (hreset p2 (by simp)) rfl ho hdepth
  refine ⟨m, m', hm, hm', ?_⟩
  rw [runSteps_succ_of_step h1, runSteps_one h2, delivered_cons p1 [p2], ← List.append_assoc]
  rfl

/-! ### Three cycles from the presented command to its end -/

/-- A switch to Transmit, from the presented command on: only a byte of the first cycle may have been stored. -/
theorem runSteps_presentedToTransmit {i : Instr} {t : State} {v : Byte} {p0 p1 p2 : Pins} {rest : List Event} (hs : s.ph = .idle)
    (hc : isCommand i = true) (hr : InRange s.cfg i) (h : s.inputs = cycles [p0, p1, p2] ++ rest) (hp : Presents i p0 [p1, p2])
    (ht : acceptAction i (clearStrobe s) = t) (hph : t.ph = .swtxA) (ho : fieldOp t.cur = opSwTx ∨ fieldOp t.cur = opSwAllTx)
    (hv : selFor .transmit t = .ok v) : ∃ m, Stored m s.cap s.wr (caught s [p0]) ∧
      runSteps 3 s = .next (ended true .none 0 { t with
        dir := .transmit, txEn := true, rxEn := false, auxSel := v, wr := 0, rd := 0, ovf := false, cap := m,
        rxin := s.rxin ++ delivered [p0, p1, p2], inputs := rest, pins := p2, clock := s.clock + 3 }) := by
  obtain ⟨hreset, hvalid, hword⟩ := hp
  obtain ⟨m, o, hm, h0⟩ := step_accept (rest := cycles [p1, p2] ++ rest) hs hc hr h (hreset p0 (by simp)) hvalid hword ht
  refine ⟨m, hm, ?_⟩
  rw [runSteps_succ_of_step h0, delivered_cons p0 [p1, p2], ← List.append_assoc]
  exact runSteps_acceptedToTransmit hph ho rfl (noReset_of_subset hreset (by grind)) hv

/-- A switch to Receive, from the presented command on: what the first two cycles catch is stored where `WR` was, and a byte of the last
one is the first in the emptied buffer. -/
theorem runSteps_presentedToReceive {i : Instr} {t : State} {v : Byte} {p0 p1 p2 : Pins} {rest : List Event} (hs : s.ph = .idle)
    (hc : isCommand i = true) (hr : InRange s.cfg i) (hdepth : 0 < s.cfg.capDepth) (h : s.inputs = cycles [p0, p1, p2] ++ rest)
    (hp : Presents i p0 [p1, p2]) (ht : acceptAction i (clearStrobe s) = t) (hph : t.ph = .swrxA) (ho : fieldOp t.cur ≠ opGetReg)
    (hv : selFor .receive t = .ok v) : ∃ m m', Stored m s.cap s.wr (caught s [p0, p1]) ∧ Stored m' m 0 (delivered [p2]) ∧
      runSteps 3 s = .next (ended true .none 0 { t with
        dir := .receive, txEn := false, rxEn := true, auxSel := v, wr := if p2.rxValid then 1 else 0, rd := 0, ovf := false,
        cap := m', rxin := s.rxin ++ delivered [p0, p1, p2], inputs := rest, pins := p2, clock := s.clock + 3 }) := by
  obtain ⟨hreset, hvalid, hword⟩ := hp
  obtain ⟨-, -, -, hrx, hcfg, -⟩ := acceptAction_untouched i (clearStrobe s)
  rw [ht] at hrx hcfg
  obtain ⟨m0, o, hm0, h0⟩ := step_accept (rest := cycles [p1, p2] ++ rest) hs hc hr h (hreset p0 (by simp)) hvalid hword ht
  obtain ⟨m, m', hm, hm', h1⟩ := runSteps_acceptedToReceive (p1 := p1) (p2 := p2) (rest := rest) (s := { t with
    cap := m0, wr := s.wr + (caught s [p0]).length, ovf := o, rxin := s.rxin ++ delivered [p0], inputs := cycles [p1, p2] ++ rest,
    clock := s.clock + 1, pins := p0 }) hph ho (hcfg ▸ hdepth) rfl (noReset_of_subset hreset (by grind)) hv
  refine ⟨m, m', stored_caught_append hm0 hm hrx hcfg rfl, hm', ?_⟩
  rw [runSteps_succ_of_step h0, h1, delivered_cons p0 [p1, p2], ← List.append_assoc]

end Sys2Proof.Machine

section
open Sys2Proof Machine Safety Words

/-- Settles O36: both commands are accepted by latching their word, and take the same three cycles. -/
theorem switchToTransmitTakesThreeCycles : Obligations.SwitchToTransmitTakesThreeCycles := by
  intro s i p0 p1 p2 rest hlegal hs hi hin hp
  rcases hi with rfl | ⟨id, rfl, hid⟩
  · have hop : fieldOp (wordOf .swAllTx) = opSwAllTx := by rw [wordOf_swAllTx, fieldOp_commandWord]
    have hsel := selFor_swAllTx (s := { clearStrobe s with cur := wordOf .swAllTx, ph := .swtxA }) rfl
    obtain ⟨m, hm, hrun⟩ :=
      runSteps_presentedToTransmit hs rfl (by exact trivial) hin hp (acceptAction_swAllTx _) rfl (.inr hop) hsel
    exact ⟨_, hrun, hm, rfl⟩
  · have hop : fieldOp (wordOf (.swTx id)) = opSwTx := by rw [wordOf_swTx, fieldOp_commandWord]
    have hsel := selFor_swTx (s := { clearStrobe s with cur := wordOf (.swTx id), ph := .swtxA }) hlegal hid rfl .transmit
    obtain ⟨m, hm, hrun⟩ :=
      runSteps_presentedToTransmit hs rfl (by exact hid) hin hp (acceptAction_swTx id _) rfl (.inl hop) hsel
    exact ⟨_, hrun, hm, rfl⟩

/-- Settles O37: both commands take the same three cycles from their acceptance, which for `INIT` also writes `BAUD` and the window. -/
theorem switchToReceiveTakesThreeCycles : Obligations.SwitchToReceiveTakesThreeCycles := by
  intro s p0 p1 p2 rest hlegal hs hin
  have hdepth : 0 < s.cfg.capDepth := lt_of_lt_of_le (by decide) hlegal.1
  refine ⟨fun id hid hp => ?_, fun baud hp => ?_⟩
  · have hop : fieldOp (wordOf (.swRx id)) ≠ opGetReg := by rw [wordOf_swRx, fieldOp_commandWord]; decide
    have hsel := selFor_swRx (s := { clearStrobe s with cur := wordOf (.swRx id), ph := .swrxA }) hlegal hid rfl .receive
    obtain ⟨m, m', hm, hm', hrun⟩ :=
      runSteps_presentedToReceive hs rfl (by exact hid) hdepth hin hp (acceptAction_swRx id _) rfl hop hsel
    exact ⟨_, hrun, ⟨m, hm, hm'⟩, rfl⟩
  · have hop : fieldOp (wordOf (.init baud)) ≠ opGetReg := by rw [wordOf_init, fieldOp_initWord]; decide
    have hsel := selFor_init (s := { clearStrobe s with
      cur := wordOf (.init baud), baud := baud, cnt := 0, frameValid := false, lenOk := false, ph := .swrxA }) rfl .receive
    obtain ⟨m, m', hm, hm', hrun⟩ :=
      runSteps_presentedToReceive hs rfl (by exact trivial) hdepth hin hp (acceptAction_init baud _) rfl hop hsel
    exact ⟨_, hrun, ⟨m, hm, hm'⟩, rfl⟩

end
end

section
/-! PROOFS. `SW_ALL_TX` and `SW_TX` where the line is shared (spec/41_direction.md R94, R101): no phase sees which of the two it is. -/

namespace Sys2Proof.Machine

variable {op op' : BitVec 4}

theorem switchOnly_commandWord_of_switch (hop : op = opSwTx ∨ op = opSwAllTx) (all : Bool) (id addr : Byte) (data : Word16) :
    switchOnly (commandWord op all id addr data) = true := switchOnly_iff.2 (by rwa [fieldOp_commandWord])

/-- In `SHARED` mode the words of two switches to transmit act alike, whatever their ids. -/
theorem actAlike_switchTransmit {p : Params} (hm : p.dirMode = .shared) (hop : op = opSwTx ∨ op = opSwAllTx)
    (hop' : op' = opSwTx ∨ op' = opSwAllTx) (id id' : Byte) :
    ActAlike p (commandWord op false id 0 0) (commandWord op' false id' 0 0) := by
  have notGetReg {o : BitVec 4} (ho : o = opSwTx ∨ o = opSwAllTx) : o ≠ opGetReg := by rcases ho with rfl | rfl <;> decide
  exact {
    selector := fun d s hs => by
      have hsel (w : Word40) : selFor d (withCur w s) = .ok s.auxSel := selFor_shared (s := withCur w s) (hs ▸ hm)
      exact (hsel _).trans (hsel _).symm
    switches := (switchOnly_commandWord_of_switch hop' ..).trans (switchOnly_commandWord_of_switch hop ..).symm
    all_eq := by simp
    getReg_iff := by simp [notGetReg hop, notGetReg hop']
    width_eq := by simp }

end Sys2Proof.Machine

section
open Sys2Proof Machine Safety Words

/-- Settles O50: after the acceptance only the word in `CUR` differs, and the two words act alike. -/
theorem swAllTxActsAsSwTxWhenShared : Obligations.SwAllTxActsAsSwTxWhenShared := by
  intro s id hs hm hid
  refine ⟨_, _, exec_swAllTx hs, exec_swTx hs hid, fun k => ?_⟩
  rw [wordOf_swAllTx, wordOf_swTx]
  exact runSteps_withCur (s := { s with cur := commandWord opSwAllTx false 0 0 0, ph := .swtxA, rspValid := false })
    (actAlike_switchTransmit hm (.inr rfl) (.inl rfl) 0 id) k

end
end

section
/-! PROOFS. The receive step and the emptying of the capture buffer (spec/42_capture.md R105, R110): bytes that arrive only add to the
buffer, the reader only goes forward, and the engine empties the buffer in the second step of a switch. -/

namespace Sys2Proof.Machine

open Words

variable {s t : State}

@[simp] theorem receiveBytes_rd (l : List Byte) (s : State) : (receiveBytes l s).rd = s.rd := by
  induction l generalizing s with
  | nil => rfl
  | cons b rest ih => exact (ih _).trans (rxStep_rd s true b)

/-- Bytes that arrive take nothing from the buffer and do not clear `OVF` (R105). -/
theorem receiveBytes_grows (l : List Byte) (s : State) :
    s.wr ≤ (receiveBytes l s).wr ∧ (s.ovf = true → (receiveBytes l s).ovf = true) := by
  cases hr : s.rxEn with
  | false => simp [receiveBytes_disabled l s hr]
  | true => simp +contextual [receiveBytes_enabled l s hr]

/-- One byte or none, arriving in an empty buffer, takes `WR` to 1 at most, and is not dropped if the buffer has room at all. -/
theorem receiveBytes_of_empty {l : List Byte} (hl : l.length ≤ 1) (hwr : s.wr = 0) (hovf : s.ovf = false) :
    (receiveBytes l s).wr ≤ 1 ∧ (0 < s.cfg.capDepth → (receiveBytes l s).ovf = false) := by
  cases hr : s.rxEn with
  | false => simp [receiveBytes_disabled l s hr, hwr, hovf]
  | true =>
    rw [receiveBytes_enabled l s hr]
    simp only [hwr, hovf, Bool.false_or, decide_eq_false_iff_not]
    omega

/-- Every move from the second step of a switch empties the buffer (R96, R98, R110). -/
theorem EngineMove.empties (h : EngineMove s t) (hp : s.ph = .swtxB ∨ s.ph = .swrxB) : t.wr = 0 ∧ t.rd = 0 ∧ t.ovf = false := by
  cases h with
  | enterTransmit | startSend | enterReceive | startRead => exact ⟨rfl, rfl, rfl⟩
  | _ => exact absurd hp (by simp [*])

/-- A step that empties the buffer receives at most one byte, into the empty buffer (R15, R110). -/
theorem step_empties (h : step s = .next t) (he : EmptiesNext s) : ∃ l u, receiveBytes l u = t ∧ l.length ≤ 1 ∧
    u.wr = 0 ∧ u.rd = 0 ∧ u.ovf = false ∧ u.cfg = s.cfg := by
  rcases he with ⟨p, hn, hr⟩ | ⟨p, hp, hph⟩
  · rcases step_cases h with ⟨l, hl, _⟩ | ⟨q, _, _, rfl⟩ | ⟨q, _, ⟨hq, hr'⟩, _⟩
    · simp [hn] at hl
    · exact ⟨[], _, rfl, by simp, rfl, rfl, rfl, by cases q.rxValid <;> rfl⟩
    · obtain rfl : p = q := by simpa [hn] using hq
      simp [hr] at hr'
  · obtain ⟨u, hm, rfl⟩ := step_engine hp h
    obtain ⟨hwr, hrd, hovf⟩ := hm.empties hph
    exact ⟨_, u, (rxStep_eq_receiveBytes p u).symm, by split <;> simp, hwr, hrd, hovf, hm.cfg_eq⟩

/-- Outside the emptying steps the reader only goes forward. -/
theorem rd_le_of_step (h : step s = .next t) (hne : ¬ EmptiesNext s) : s.rd ≤ t.rd := by
  rcases step_cases h with ⟨l, _, rfl⟩ | ⟨p, hn, hp, _⟩ | ⟨p, u, hp, hm, rfl⟩
  · simp
  · exact absurd (.inl ⟨p, hn, hp⟩) hne
  · rw [rxStep_rd]
    cases hm.captureMove with
    | kept _ hrd => exact hrd.ge
    | consumed _ _ _ hrd => exact hrd.symm ▸ Nat.le_succ s.rd
    | emptied hq => exact absurd (.inr ⟨p, hp, hq⟩) hne

end Sys2Proof.Machine

section
open Sys2Proof Machine Safety Words

/-- Settles O25: the cases of the receive step, and the engine's moves as the capture buffer sees them. -/
theorem receiveStep : Obligations.ReceiveStep := by
  refine ⟨fun s b => ⟨rxStep_false b s, receiveBytes_disabled [b] s, fun hr hw => ?_, fun hr hw => rxStep_full hr hw b⟩,
    fun s t h => ?_⟩
  · exact ⟨_, stored_write s.cap s.wr b, rxStep_room hr hw b⟩
  · have hm := engineMove_of_engineStep h
    refine ⟨hm.cap_eq, ?_⟩
    cases hm.captureMove with
    | kept hwr _ hovf | consumed _ _ hwr _ hovf => exact .inl ⟨hwr, hovf⟩
    | emptied hp hwr _ hovf => exact .inr ⟨hp, hwr, hovf⟩

/-- Settles O27: an emptying step receives one byte at most into the empty buffer; in the others bytes arrive in the buffer as it was,
and the reader goes forward. -/
theorem captureIsEmptiedOnlyBySwitchOrReset : Obligations.CaptureIsEmptiedOnlyBySwitchOrReset := by
  refine fun s t h => ⟨fun he => ?_, fun hne => ?_⟩
  · obtain ⟨l, u, rfl, hl, hwr, hrd, hovf, hcfg⟩ := step_empties h he
    exact ⟨(receiveBytes_rd l u).trans hrd, hcfg ▸ receiveBytes_of_empty hl hwr hovf⟩
  · obtain ⟨u, hu, -, hwr, hovf, -⟩ := step_receives h hne
    obtain ⟨hgrow, hkeep⟩ := receiveBytes_grows (deliveredNext s) u
    rw [hu, hwr] at hgrow
    rw [hu, hovf] at hkeep
    exact ⟨hgrow, rd_le_of_step h hne, hkeep⟩

end
end

section
/-! PROOFS. The acceptance of a read and the reader's steps (spec/43_framer.md R114 to R125, spec/45_register_access_init.md R152),
each as the state after it: the branches of `READ` with the resynchronization rule, and the outcomes of `CHECK`. -/

namespace Sys2Proof.Machine

open Words

variable {s : State}

/-! ### The acceptance -/

theorem wordOf_readPacket (n : Byte) : wordOf (.readPacket n) = commandWord opReadPacket false 0 0 (zext16 n) := wordOf_eq rfl rfl

theorem acceptAction_readPacket (n : Byte) (s : State) : acceptAction (.readPacket n) s = { s with
    cur := wordOf (.readPacket n), expect := n.toNat, cnt := 0, waitc := 0, frameValid := false, lenOk := false, ph := .read } := by
  rw [wordOf_readPacket]
  rfl

theorem exec_readPacket {n : Byte} (hs : s.ph = .idle) (hn : InRange s.cfg (.readPacket n)) :
    exec (.readPacket n) s = .next { s with
      cur := wordOf (.readPacket n), expect := n.toNat, cnt := 0, waitc := 0, frameValid := false, lenOk := false, ph := .read,
      rspValid := false } := by
  rw [exec_of_inRange rfl hs hn, acceptAction_readPacket]
  rfl

theorem exec_init (baud : Word32) (hs : s.ph = .idle) : exec (.init baud) s = .next { s with
    cur := wordOf (.init baud), baud := baud, cnt := 0, frameValid := false, lenOk := false, ph := .swrxA, rspValid := false } := by
  rw [exec_of_inRange (i := .init baud) rfl hs trivial, acceptAction_init]
  rfl

/-! ### `READ` -/

/-- The resynchronization rule (R117): with `cnt` bytes assembled the reader skips `b`, which is no frame start, or a sync byte where
the id belongs. -/
abbrev Skips (cnt : Nat) (b : Byte) : Prop := (cnt = 0 ∧ b ≠ 0xFF) ∨ (cnt = 2 ∧ b = 0xFF)

theorem skips_iff {cnt : Nat} {b : Byte} : Skips cnt b ↔ notFrameStart cnt b = true ∨ duplicateSync cnt b = true := by
  simp [Skips, notFrameStart, duplicateSync, Config.sync]

section
variable (hs : s.ph = .read)
include hs

section
variable {b : Byte} (hr : s.rd < s.wr) (hd : s.rd < s.cfg.capDepth) (hb : Memory.read s.cap s.rd = some b)
include hr hd hb

/-- An available byte is consumed and classified, whatever `OVF` and `WAITC` are (R116). -/
theorem engineStep_consume : engineStep s = classify b { s with rd := s.rd + 1, waitc := 0, rspValid := false } := by
  have hread : readByte .cap (clearStrobe s) s.rd = .ok b := readByte_of_written hd hb
  rw [engineStep_read hs, readStep, if_pos (show byteAvailable (clearStrobe s) = true from decide_eq_true hr), clearStrobe_rd, hread,
    orFault_ok]
  rfl

theorem engineStep_skip (h : Skips s.cnt b) :
    engineStep s = .next { s with rd := s.rd + 1, waitc := 0, rspValid := false } :=
  (engineStep_consume hs hr hd hb).trans (classify_eq_next.2 (.inl ⟨skips_iff.1 h, rfl⟩))

theorem engineStep_store (h : ¬ Skips s.cnt b) (hn : s.cnt < s.cfg.capDepth) :
    engineStep s = .next { s with
      rd := s.rd + 1, waitc := 0, asm := Memory.write s.asm s.cnt b, cnt := s.cnt + 1,
      ph := if s.cnt + 1 = s.expect then .check else .read, rspValid := false } := by
  rw [skips_iff, not_or, Bool.not_eq_true, Bool.not_eq_true] at h
  rw [engineStep_consume hs hr hd hb]
  exact classify_eq_next.2 (.inr ⟨h.1, h.2, hn, by rw [hs]⟩)

end

section
variable (hr : s.wr ≤ s.rd)
include hr

theorem engineStep_overflow (ho : s.ovf = true) : engineStep s = .next (failed .overflow s) :=
  (engineStep_read hs).trans (readStep_eq_next.2 (.inr (.inl ⟨Nat.not_lt.2 hr, ho, rfl⟩)))

theorem engineStep_timeout (ho : s.ovf = false) (hw : s.waitc = s.cfg.waitBudget) : engineStep s = .next (failed .timeout s) :=
  (engineStep_read hs).trans (readStep_eq_next.2 (.inr (.inr (.inl ⟨Nat.not_lt.2 hr, ho, hw, rfl⟩))))

theorem engineStep_emptyPoll (ho : s.ovf = false) (hw : s.waitc ≠ s.cfg.waitBudget) :
    engineStep s = .next { s with waitc := s.waitc + 1, rspValid := false } :=
  (engineStep_read hs).trans (readStep_eq_next.2 (.inr (.inr (.inr ⟨Nat.not_lt.2 hr, ho, hw, rfl⟩))))

end

end

/-! ### `CHECK` -/

theorem lengthAgrees_eq {length : Byte} {n : Nat} (h : 4 ≤ n) : lengthAgrees length n = decide (length.toNat = n - 4) := by
  rw [lengthAgrees, Bool.eq_iff_iff, beq_iff_eq, decide_eq_true_iff]
  omega

theorem word16_eq_ofNat (lo hi : Byte) : word16 lo hi = BitVec.ofNat 16 (lo.toNat + 256 * hi.toNat) := by
  apply BitVec.eq_of_toNat_eq
  have hlo := lo.isLt
  have hhi := hi.isLt
  rw [word16_toNat, BitVec.toNat_ofNat, Nat.mod_eq_of_lt (by omega)]

theorem registerValue_clearStrobe (s : State) : registerValue (clearStrobe s) = registerValue s := by simp [registerValue]

section
variable {l : List Byte} (hcap : s.expect ≤ s.cfg.capDepth) (hl : l.length = s.expect - 2)
  (hasm : ∀ k < l.length, Memory.read s.asm (2 + k) = l[k]?)
include hcap hl hasm

theorem readByte_window {k : Nat} {b : Byte} (hb : l[k]? = some b) : readByte .asm s (2 + k) = .ok b := by
  obtain ⟨hk, _⟩ := List.getElem?_eq_some_iff.1 hb
  exact readByte_of_written (by simp only [bufferSize]; omega) ((hasm k hk).trans hb)

theorem readBytes_window : readBytes .asm s 2 (s.expect - 2) = .ok l :=
  readBytes_eq_ok.2 ⟨hl, fun _ hk => readByte_window hcap hl hasm (List.getElem?_eq_getElem hk)⟩

variable (hs : s.ph = .check)
include hs

/-- A wrong sum is the failure `CHECKSUM` (R124). -/
theorem engineStep_wrongSum (hsum : total l % 256 ≠ 255) : engineStep s = .next (failed .checksum s) := by
  have hread := (readBytes_clearStrobe ..).trans (readBytes_window hcap hl hasm)
  have hwrong : frameSumOk l = false := Bool.eq_false_iff.2 (mt frameSumOk_iff_total.1 hsum)
  exact (engineStep_check hs).trans (checkStep_eq_next.2 ⟨l, hread, .inl ⟨hwrong, rfl⟩⟩)

variable (hsum : total l % 256 = 255) {length : Byte} (hlen : l[1]? = some length)
include hsum hlen

/-- A frame with the right sum ends a `READ_PACKET` (R124, R125). -/
theorem engineStep_frameAccepted (ho : fieldOp s.cur ≠ opGetReg) : engineStep s = .next
    (ended true .none 0 { s with frameValid := true, lenOk := lengthAgrees length s.expect }) := by
  have hread := (readBytes_clearStrobe ..).trans (readBytes_window hcap hl hasm)
  have hlen' := (readByte_clearStrobe ..).trans (readByte_window hcap hl hasm hlen)
  exact (engineStep_check hs).trans
    (checkStep_eq_next.2 ⟨l, hread, .inr ⟨frameSumOk_iff_total.2 hsum, length, hlen', .inl ⟨ho, rfl⟩⟩⟩)

/-- A frame with the right sum ends a `GET_REG`, which records the status and returns the value (R152). -/
theorem engineStep_getRegFinish {status : Byte} {v : Word16} (ho : fieldOp s.cur = opGetReg) (hstatus : l[2]? = some status)
    (hv : registerValue s = .ok v) : engineStep s = .next
      (ended true .none v { s with frameValid := true, lenOk := lengthAgrees length s.expect, lasterr := status }) := by
  have hread := (readBytes_clearStrobe ..).trans (readBytes_window hcap hl hasm)
  have hlen' := (readByte_clearStrobe ..).trans (readByte_window hcap hl hasm hlen)
  have hstatus' := (readByte_clearStrobe ..).trans (readByte_window hcap hl hasm hstatus)
  have hv' := (registerValue_clearStrobe s).trans hv
  exact (engineStep_check hs).trans (checkStep_eq_next.2
    ⟨l, hread, .inr ⟨frameSumOk_iff_total.2 hsum, length, hlen', .inr ⟨ho, status, v, hstatus', hv', rfl⟩⟩⟩)

end

theorem registerValue_byte {lo : Byte} (hw : fieldDataLo s.cur = 1) (hlo : readByte .asm s 5 = .ok lo) :
    registerValue s = .ok (0#8 ++ lo) := by
  simp [registerValue, hlo, hw, zext16_eq_append]

theorem registerValue_word {lo hi : Byte} (hw : fieldDataLo s.cur ≠ 1) (hlo : readByte .asm s 5 = .ok lo)
    (hhi : readByte .asm s 6 = .ok hi) : registerValue s = .ok (BitVec.ofNat 16 (lo.toNat + 256 * hi.toNat)) := by
  simp only [registerValue, hlo, hhi, if_neg hw, word16_eq_ofNat]

end Sys2Proof.Machine

section
open Sys2Proof Machine Safety Words

/-- Settles O13: both commands are in range, and their acceptance actions write this and no more. -/
theorem readPacketAndInitAreAccepted : Obligations.ReadPacketAndInitAreAccepted := fun _ hs =>
  ⟨fun _ hmin hmax => exec_readPacket hs ⟨hmin, hmax⟩, fun baud => exec_init baud hs⟩

/-- Settles O23: the branches of the reader, one lemma each. -/
theorem readStep : Obligations.ReadStep := fun _ hs =>
  ⟨fun hr hd _ hb => ⟨engineStep_skip hs hr hd hb, fun h hn => ⟨_, stored_write _ _ _, engineStep_store hs hr hd hb h hn⟩⟩,
    engineStep_overflow hs, engineStep_timeout hs, engineStep_emptyPoll hs⟩

/-- Settles O24: the bytes `l` are what `CHECK` reads, and their places give the length, the status and the value. -/
theorem checkStep : Obligations.CheckStep := by
  intro s l hs hmin hcap hl hasm
  refine ⟨engineStep_wrongSum hcap hl hasm hs, fun hsum length status lo hlen hstatus hlo => ?_⟩
  have hlo' : readByte .asm s 5 = .ok lo := readByte_window hcap hl hasm hlo
  rw [← lengthAgrees_eq (by omega)]
  refine ⟨engineStep_frameAccepted hcap hl hasm hs hsum hlen, fun ho hw => ?_, fun ho hw hi hhi => ?_⟩
  · exact engineStep_getRegFinish hcap hl hasm hs hsum hlen ho hstatus (registerValue_byte hw hlo')
  · exact engineStep_getRegFinish hcap hl hasm hs hsum hlen ho hstatus
      (registerValue_word hw hlo' (readByte_window hcap hl hasm hhi))

end
end

section
/-! PROOFS. Cycles of a busy block in which nothing is caught, because no byte arrives or the receiver is off (spec/42_capture.md
R105, R106): the engine acts, `RXIN` hears, and time goes on. The reader on such a line: its empty polls up to the timeout, and a
read over a drained buffer that has overflowed (spec/43_framer.md R119 to R121). -/

namespace Sys2Proof.Machine

open Safety Words

variable {s : State}

/-- What these cycles do to the block in a command, but for what the engine writes while no command ends. -/
def elapse (s : State) (ps : List Pins) (rest : List Event) : State :=
  { s with rspValid := ps.isEmpty && s.rspValid, rxin := s.rxin ++ delivered ps, inputs := rest, pins := ps.getLastD s.pins,
           clock := s.clock + ps.length }

theorem elapse_nil {rest : List Event} (h : s.inputs = rest) : elapse s [] rest = s := by
  subst h
  simp [elapse, delivered]

theorem elapse_cons (p : Pins) (ps : List Pins) (rest' rest : List Event) :
    elapse (elapse s [p] rest') ps rest = elapse s (p :: ps) rest := by
  simp [elapse, delivered_cons p ps, List.getLast?_cons, Nat.add_assoc, Nat.add_comm 1]

theorem delivered_eq_nil {ps : List Pins} (h : ∀ p ∈ ps, p.rxValid = false) : delivered ps = [] := by
  rw [delivered, List.filter_eq_nil_iff.2 fun p hp => by simp [h p hp], List.map_nil]

/-- A cycle in which nothing is caught. -/
theorem step_deaf {u : State} {p : Pins} {rest : List Event} (h : s.inputs = .cycle p :: rest) (hp : p.rst = false)
    (he : engineStep { s with inputs := rest, clock := s.clock + 1, pins := p } = .next u)
    (hdeaf : p.rxValid = false ∨ u.rxEn = false) :
    step s = .next { u with rxin := u.rxin ++ delivered [p] } := by
  rw [step_cycle h hp, he, andThen_next]
  rcases hdeaf with hv | hr
  · simp [hv]
  · rw [rxStep_off hr]

/-- The block after the cycle that accepted a `READ_PACKET` (R114, R115). -/
def readStarted (s : State) (n : Byte) (p : Pins) (rest : List Event) : State :=
  { s with cur := wordOf (.readPacket n), expect := n.toNat, cnt := 0, waitc := 0, frameValid := false, lenOk := false,
           ph := .read, rspValid := false, inputs := rest, pins := p, clock := s.clock + 1 }

/-- The cycle in which a `READ_PACKET` in range is presented and no byte arrives. -/
theorem step_acceptReadPacket {n : Byte} {p : Pins} {rest : List Event} (hs : s.ph = .idle) (hn : InRange s.cfg (.readPacket n))
    (h : s.inputs = .cycle p :: rest) (hp : p.rst = false) (hvalid : p.cmdValid = true) (hword : p.cmdWord = wordOf (.readPacket n))
    (hv : p.rxValid = false) : step s = .next (readStarted s n p rest) := by
  rw [step_presented h hp hvalid (hword ▸ decodeCommand_wordOf rfl), exec_readPacket (by exact hs) (by exact hn), hv]
  rfl

section
variable (hs : s.ph = .read) (hr : s.wr ≤ s.rd)
include hs hr

section
variable {p : Pins} {rest : List Event} (h : s.inputs = .cycle p :: rest) (hp : p.rst = false)
  (hdeaf : p.rxValid = false ∨ s.rxEn = false)
include h hp hdeaf

theorem step_overflow (ho : s.ovf = true) : step s = .next (failed .overflow { s with
    rxin := s.rxin ++ delivered [p], inputs := rest, pins := p, clock := s.clock + 1 }) :=
  step_deaf h hp (engineStep_overflow (s := { s with inputs := rest, clock := s.clock + 1, pins := p }) hs hr ho) hdeaf

variable (ho : s.ovf = false)
include ho

theorem step_timeout (hw : s.waitc = s.cfg.waitBudget) : step s = .next (failed .timeout { s with
    rxin := s.rxin ++ delivered [p], inputs := rest, pins := p, clock := s.clock + 1 }) :=
  step_deaf h hp (engineStep_timeout (s := { s with inputs := rest, clock := s.clock + 1, pins := p }) hs hr ho hw) hdeaf

theorem step_emptyPoll (hw : s.waitc ≠ s.cfg.waitBudget) :
    step s = .next { elapse s [p] rest with waitc := s.waitc + 1 } :=
  step_deaf h hp (engineStep_emptyPoll (s := { s with inputs := rest, clock := s.clock + 1, pins := p }) hs hr ho hw) hdeaf

end

/-- While the budget lasts every cycle is an empty poll (R120). -/
theorem runSteps_emptyPolls {ps : List Pins} {rest : List Event} (h : s.inputs = cycles ps ++ rest) (hreset : NoReset ps)
    (hdeaf : (∀ p ∈ ps, p.rxValid = false) ∨ s.rxEn = false) (ho : s.ovf = false)
    (hw : s.waitc + ps.length ≤ s.cfg.waitBudget) :
    runSteps ps.length s = .next { elapse s ps rest with waitc := s.waitc + ps.length } := by
  induction ps generalizing s with
  | nil => exact congrArg Host.Outcome.next (elapse_nil h).symm
  | cons p ps ih =>
    rw [List.length_cons] at hw
    have h1 := step_emptyPoll (rest := cycles ps ++ rest) hs hr h (hreset p List.mem_cons_self)
      (hdeaf.imp_left fun hv => hv p List.mem_cons_self) ho (by omega)
    have h2 := ih (s := { elapse s [p] (cycles ps ++ rest) with waitc := s.waitc + 1 }) hs hr rfl
      (fun q hq => hreset q (List.mem_cons_of_mem p hq)) (hdeaf.imp_left fun hv q hq => hv q (List.mem_cons_of_mem p hq)) ho
      (by simp only [elapse]; omega)
    rw [List.length_cons, runSteps_succ_of_step h1, h2, ← elapse_cons p ps (cycles ps ++ rest) rest, Nat.add_comm ps.length,
      ← Nat.add_assoc]
    rfl

end

end Sys2Proof.Machine

section
open Sys2Proof Machine Safety Words

/-- Settles O45: the empty polls, as many as the budget says, and the step that finds it spent. -/
theorem silentReadTimesOutExactly : Obligations.SilentReadTimesOutExactly := by
  intro s ps rest hs hr ho hw hin hreset hlen hdeaf
  have polls {l k : List Pins} (hl : l ++ k = ps) (hle : l.length ≤ s.cfg.waitBudget) : runSteps l.length s =
      .next { elapse s l (cycles k ++ rest) with waitc := l.length } := by
    subst hl
    have h := runSteps_emptyPolls hs hr (ps := l) (rest := cycles k ++ rest) (by rw [hin]; simp [cycles])
      (noReset_of_subset hreset (by simp)) (hdeaf.imp_left fun hv p hp => hv p (by simp [hp])) ho (by omega)
    rwa [hw, Nat.zero_add] at h
  refine ⟨fun k hpos hk => ?_, ?_⟩
  · have hlk : (ps.take k).length = k := by rw [List.length_take]; omega
    have h := polls (List.take_append_drop k ps) (hlk.trans_le hk)
    rw [hlk] at h
    refine ⟨_, h, hs, rfl, ?_⟩
    obtain ⟨p, l, hl⟩ := List.exists_cons_of_length_pos (hlk.symm ▸ hpos)
    simp [elapse, hl]
  · obtain ⟨l, q, rfl⟩ : ∃ l q, ps = l ++ [q] := ⟨_, _, (List.dropLast_append_getLast (by rintro rfl; simp at hlen)).symm⟩
    have hll : l.length = s.cfg.waitBudget := by simpa using hlen
    have h := polls rfl hll.le
    have hend := step_timeout (s := { elapse s l (cycles [q] ++ rest) with waitc := l.length }) (rest := rest) hs hr rfl
      (hreset q (by simp)) (hdeaf.imp_left fun hv => hv q (by simp)) ho hll
    rw [← hll, runSteps_add h, runSteps_one hend]
    refine ⟨_, rfl, ?_⟩
    rw [delivered_append, ← List.append_assoc]
    rfl

/-- Settles O46: the read that is accepted finds the buffer drained and `OVF` set, and fails in its first step. -/
theorem overflowPersists : Obligations.OverflowPersists := by
  intro s n p0 p1 rest hs hr ho hn hin ⟨hreset, hvalid, hword⟩ hv0 hv1
  have h0 := step_acceptReadPacket (rest := cycles [p1] ++ rest) hs hn hin (hreset p0 (by simp)) hvalid hword hv0
  have h1 := step_overflow (s := readStarted s n p0 (cycles [p1] ++ rest)) rfl hr rfl (hreset p1 (by simp)) (.inl hv1) ho
  rw [runSteps_succ_of_step h0, runSteps_one h1, delivered_eq_nil (ps := [p1]) (by simpa using hv1), List.append_nil]
  rfl

end
end

section
/-! PROOFS. `READ_PACKET` over captured bytes (spec/43_framer.md R117, R118, R122 to R129): the reader folds one function over the
bytes, which drops noise and extra markers and keeps the rest; what it keeps stands in `ASM` and is judged by `CHECK`. -/

namespace Sys2Proof.Machine

open Safety Words

variable {s : State}

/-! ### The bytes that the reader keeps -/

/-- The window after the byte `b`, which the resynchronization rule skips or appends (R117). -/
def takeByte (w : List Byte) (b : Byte) : List Byte := if Skips w.length b then w else w ++ [b]

theorem takeByte_skip {w : List Byte} {b : Byte} (h : Skips w.length b) : takeByte w b = w := if_pos h

theorem takeByte_store {w : List Byte} {b : Byte} (h : ¬ Skips w.length b) : takeByte w b = w ++ [b] := if_neg h

theorem length_le_foldl_takeByte (l w : List Byte) : w.length ≤ (l.foldl takeByte w).length := by
  induction l generalizing w with
  | nil => exact le_rfl
  | cons b l ih =>
    refine le_trans ?_ (ih (takeByte w b))
    rw [takeByte]
    split <;> simp

/-- Before the first marker every byte is skipped. -/
theorem foldl_takeByte_noise {l : List Byte} (h : ∀ b ∈ l, b ≠ 0xFF) : l.foldl takeByte [] = [] := by
  induction l with
  | nil => rfl
  | cons b l ih =>
    rw [List.foldl_cons, takeByte_skip (.inl ⟨rfl, h b List.mem_cons_self⟩)]
    exact ih fun c hc => h c (List.mem_cons_of_mem b hc)

/-- Of two or more markers two are kept (R118). -/
theorem foldl_takeByte_markers (k : Nat) : (List.replicate (k + 2) 0xFF).foldl takeByte [] = [0xFF, 0xFF] := by
  have extra : (List.replicate k 0xFF).foldl takeByte [0xFF, 0xFF] = [0xFF, 0xFF] := by
    induction k with
    | zero => rfl
    | succ k ih =>
      rw [List.replicate_succ, List.foldl_cons, takeByte_skip (.inr ⟨rfl, rfl⟩)]
      exact ih
  rw [List.replicate_succ, List.replicate_succ, List.foldl_cons, takeByte_store (by decide), List.foldl_cons,
    takeByte_store (by decide)]
  exact extra

/-- After the id every byte is kept. -/
theorem foldl_takeByte_params {w : List Byte} (h : 3 ≤ w.length) (l : List Byte) : l.foldl takeByte w = w ++ l := by
  induction l generalizing w with
  | nil => rw [List.foldl_nil, List.append_nil]
  | cons b l ih =>
    have hb : ¬ Skips w.length b := by
      rintro (⟨h0, _⟩ | ⟨h2, _⟩) <;> omega
    rw [List.foldl_cons, takeByte_store hb, ih (by rw [List.length_append]; omega), List.append_assoc, List.singleton_append]

/-- Of noise, markers and the bytes from an id on, the reader keeps two markers and these bytes. -/
theorem foldl_takeByte_frame {noise body : List Byte} {k : Nat} (hnoise : ∀ b ∈ noise, b ≠ 0xFF) (hk : 2 ≤ k)
    (hid : body.head? ≠ some 0xFF) : (noise ++ List.replicate k 0xFF ++ body).foldl takeByte [] = 0xFF :: 0xFF :: body := by
  obtain ⟨j, rfl⟩ := Nat.exists_eq_add_of_le' hk
  rw [List.foldl_append, List.foldl_append, foldl_takeByte_noise hnoise, foldl_takeByte_markers]
  cases body with
  | nil => rfl
  | cons id params =>
    have hstore : ¬ Skips [(0xFF : Byte), 0xFF].length id := by
      rintro (⟨h0, _⟩ | ⟨_, h⟩)
      · exact absurd h0 (by simp)
      · exact hid (congrArg some h)
    rw [List.foldl_cons, takeByte_store hstore, foldl_takeByte_params (by simp)]
    rfl

/-- Of these bytes without the last one the reader keeps one byte less. -/
theorem foldl_takeByte_frame_dropLast {noise body : List Byte} {k : Nat} (hnoise : ∀ b ∈ noise, b ≠ 0xFF) (hk : 2 ≤ k)
    (hid : body.head? ≠ some 0xFF) (hlong : 1 < body.length) :
    (noise ++ List.replicate k 0xFF ++ body).dropLast.foldl takeByte [] = 0xFF :: 0xFF :: body.dropLast := by
  rw [List.dropLast_append_of_ne_nil (List.ne_nil_of_length_pos (by omega))]
  refine foldl_takeByte_frame hnoise hk ?_
  rwa [List.head?_dropLast, if_pos hlong]

/-! ### The reader over bytes that are in the buffer -/

/-- The reader has kept the bytes `w`, which stand in `ASM` over what was there before, and expects more. -/
structure Assembled (s : State) (m0 : Memory) (w : List Byte) : Prop where
  phase : s.ph = .read
  polls : s.waitc = 0
  window : Stored s.asm m0 0 w
  count : s.cnt = w.length
  incomplete : w.length < s.expect
  fits : s.expect ≤ s.cfg.capDepth

/-- The bytes `l` are the next ones that the reader finds in the buffer. -/
structure Unread (s : State) (l : List Byte) : Prop where
  available : s.rd + l.length ≤ s.wr
  inside : s.wr ≤ s.cfg.capDepth
  bytes : ∀ j < l.length, Memory.read s.cap (s.rd + j) = l[j]?

/-- The state after cycles in which the reader consumed a byte each, with the window `w` in `ASM` now. -/
def consumed (s : State) (w : List Byte) (m : Memory) (ps : List Pins) (rest : List Event) : State :=
  { elapse s ps rest with rd := s.rd + ps.length, waitc := 0, asm := m, cnt := w.length,
                          ph := if w.length = s.expect then .check else .read }

theorem consumed_nil {m0 : Memory} {w : List Byte} {rest : List Event} (ha : Assembled s m0 w) (h : s.inputs = rest) :
    consumed s w s.asm [] rest = s := by
  rw [consumed, elapse_nil h, if_neg ha.incomplete.ne, ← ha.count, ← ha.phase, ← ha.polls]
  rfl

theorem consumed_cons (w w' : List Byte) (m m' : Memory) (p : Pins) (ps : List Pins) (rest' rest : List Event) :
    consumed (consumed s w m [p] rest') w' m' ps rest = consumed s w' m' (p :: ps) rest := by
  have he := elapse_cons (s := s) p ps rest' rest
  have hrd : s.rd + 1 + ps.length = s.rd + (ps.length + 1) := by omega
  unfold consumed
  rw [← he]
  simp only [elapse, List.length_cons, List.length_nil, Nat.zero_add, hrd]

theorem Unread.tail {b : Byte} {l w : List Byte} (h : Unread s (b :: l)) (m : Memory) (p : Pins) (rest : List Event) :
    Unread (consumed s w m [p] rest) l where
  available := by
    have := h.available
    rw [List.length_cons] at this
    simp only [consumed, elapse, List.length_singleton]
    omega
  inside := h.inside
  bytes := fun j hj => by
    have := h.bytes (j + 1) (by simpa using hj)
    simpa [consumed, elapse, Nat.add_assoc, Nat.add_comm 1] using this

theorem Assembled.next {m m0 : Memory} {w w' : List Byte} {p : Pins} {rest : List Event} (h : Assembled s m0 w)
    (hm : Stored m m0 0 w') (hlt : w'.length < s.expect) : Assembled (consumed s w' m [p] rest) m0 w' where
  phase := if_neg hlt.ne
  polls := rfl
  window := hm
  count := rfl
  incomplete := hlt
  fits := h.fits

/-- A cycle in which the reader consumes a byte: it is skipped, or it joins the window. -/
theorem step_consume {m0 : Memory} {w l : List Byte} {b : Byte} {p : Pins} {rest : List Event} (ha : Assembled s m0 w)
    (hu : Unread s (b :: l)) (h : s.inputs = .cycle p :: rest) (hp : p.rst = false) (hv : p.rxValid = false) :
    ∃ m, Stored m m0 0 (takeByte w b) ∧ step s = .next (consumed s (takeByte w b) m [p] rest) := by
  have hlen := hu.available
  rw [List.length_cons] at hlen
  have hr : s.rd < s.wr := by omega
  have hd : s.rd < s.cfg.capDepth := hr.trans_le hu.inside
  have hb : Memory.read s.cap s.rd = some b := hu.bytes 0 (by simp)
  have hn : s.cnt < s.cfg.capDepth := ha.count ▸ ha.incomplete.trans_le ha.fits
  by_cases hskip : Skips w.length b
  · refine ⟨s.asm, (takeByte_skip hskip).symm ▸ ha.window, ?_⟩
    rw [takeByte_skip hskip, consumed, if_neg ha.incomplete.ne, ← ha.count, ← ha.phase]
    exact step_deaf h hp (engineStep_skip (s := { s with inputs := rest, clock := s.clock + 1, pins := p })
      ha.phase hr hd hb (ha.count ▸ hskip)) (.inl hv)
  · refine ⟨Memory.write s.asm s.cnt b, (takeByte_store hskip).symm ▸ stored_append ha.window ?_, ?_⟩
    · rw [Nat.zero_add, ← ha.count]
      exact stored_write _ _ _
    · rw [takeByte_store hskip, consumed, List.length_append, List.length_singleton, ← ha.count]
      exact step_deaf h hp (engineStep_store (s := { s with inputs := rest, clock := s.clock + 1, pins := p })
        ha.phase hr hd hb (ha.count ▸ hskip) hn) (.inl hv)

/-- The reader over the bytes `l` of the buffer, a cycle each, where the frame is complete with the last of them at the earliest. -/
theorem runSteps_consume {m0 : Memory} {w l : List Byte} {ps : List Pins} {rest : List Event} (ha : Assembled s m0 w)
    (hu : Unread s l) (h : s.inputs = cycles ps ++ rest) (hreset : NoReset ps) (hv : ∀ p ∈ ps, p.rxValid = false)
    (hlen : ps.length = l.length) (hlast : (l.dropLast.foldl takeByte w).length < s.expect) :
    ∃ m, Stored m m0 0 (l.foldl takeByte w) ∧ runSteps ps.length s = .next (consumed s (l.foldl takeByte w) m ps rest) := by
  induction l generalizing s w ps with
  | nil =>
    obtain rfl := List.length_eq_zero_iff.1 hlen
    exact ⟨s.asm, ha.window, congrArg Host.Outcome.next (consumed_nil ha h).symm⟩
  | cons b l ih =>
    obtain _ | ⟨p, ps⟩ := ps
    · simp at hlen
    obtain ⟨m, hm, h1⟩ := step_consume (rest := cycles ps ++ rest) ha hu h (hreset p List.mem_cons_self) (hv p List.mem_cons_self)
    cases l with
    | nil =>
      obtain rfl : ps = [] := by simpa using hlen
      exact ⟨m, hm, runSteps_one h1⟩
    | cons c l =>
      have hlt := (length_le_foldl_takeByte (c :: l).dropLast (takeByte w b)).trans_lt hlast
      obtain ⟨m', hm', h2⟩ := ih (ha.next hm hlt) (hu.tail m p (cycles ps ++ rest)) rfl
        (fun q hq => hreset q (List.mem_cons_of_mem p hq)) (fun q hq => hv q (List.mem_cons_of_mem p hq)) (by simpa using hlen) hlast
      rw [consumed_cons] at h2
      exact ⟨m', hm', (runSteps_succ_of_step h1).trans h2⟩

/-! ### The frame that was read -/

/-- Two bytes and then `l` at the start of an array are `l` from index 2 on. -/
theorem stored_drop_two {m m0 : Memory} {a b : Byte} {l : List Byte} (h : Stored m m0 0 (a :: b :: l)) :
    ∀ k < l.length, Memory.read m (2 + k) = l[k]? := fun k hk => by
  rw [h (2 + k), if_neg (Nat.not_lt_zero _), if_pos (by simp only [List.length_cons]; omega), Nat.sub_zero, Nat.add_comm]
  rfl

/-- The cycle of `CHECK` at the end of a `READ_PACKET` whose frame is `body` from its id on (R124, R125). -/
theorem step_checkPacket {body : List Byte} {p : Pins} {rest : List Event} (hs : s.ph = .check) (h : s.inputs = .cycle p :: rest)
    (hp : p.rst = false) (hv : p.rxValid = false) (hcap : s.expect ≤ s.cfg.capDepth) (hbody : body.length = s.expect - 2)
    (hlong : 2 ≤ body.length) (hasm : ∀ k < body.length, Memory.read s.asm (2 + k) = body[k]?) (ho : fieldOp s.cur ≠ opGetReg)
    (hvalid : s.frameValid = false) (hlenOk : s.lenOk = false) :
    step s = .next ((if total body % 256 = 255 then ended true .none 0 else failed .checksum) { s with
      frameValid := decide (total body % 256 = 255),
      lenOk := decide (total body % 256 = 255 ∧ (body[1]?).map (·.toNat) = some (s.expect - 4)),
      inputs := rest, pins := p, clock := s.clock + 1 }) := by
  rw [step_cycle h hp, hv]
  by_cases hsum : total body % 256 = 255
  · have hlen : body[1]? = some body[1] := List.getElem?_eq_getElem hlong
    rw [engineStep_frameAccepted (by exact hcap) (by exact hbody) (by exact hasm) (by exact hs) hsum hlen (by exact ho), andThen_next,
      rxStep_false, lengthAgrees_eq (by dsimp only; omega)]
    simp only [hsum, hlen, Option.map_some, Option.some.injEq, if_true, decide_true, true_and]
  · rw [engineStep_wrongSum (by exact hcap) (by exact hbody) (by exact hasm) (by exact hs) hsum, andThen_next, rxStep_false]
    simp only [hsum, if_false, decide_false, false_and, hvalid, hlenOk]

/-- A `READ_PACKET` over the bytes `l` of the buffer, of which the reader keeps a frame that is complete with the last of them. -/
theorem runSteps_readPacket {n : Byte} {l body : List Byte} {p0 q : Pins} {qs : List Pins} {rest : List Event} (hs : s.ph = .idle)
    (hn : InRange s.cfg (.readPacket n)) (hu : Unread s l) (hkept : l.foldl takeByte [] = 0xFF :: 0xFF :: body)
    (hbody : body.length + 2 = n.toNat) (hlast : (l.dropLast.foldl takeByte []).length < n.toNat)
    (h : s.inputs = cycles (p0 :: (qs ++ [q])) ++ rest) (hp : Presents (.readPacket n) p0 (qs ++ [q]))
    (hlen : qs.length = l.length) (hv : ∀ p ∈ p0 :: (qs ++ [q]), p.rxValid = false) :
    ∃ m, Stored m s.asm 0 (0xFF :: 0xFF :: body) ∧ runSteps (l.length + 2) s = .next
      ((if total body % 256 = 255 then ended true .none 0 else failed .checksum) { s with
        cur := wordOf (.readPacket n), expect := n.toNat, cnt := n.toNat, waitc := 0, rd := s.rd + l.length, asm := m,
        frameValid := decide (total body % 256 = 255),
        lenOk := decide (total body % 256 = 255 ∧ (body[1]?).map (·.toNat) = some (n.toNat - 4)),
        inputs := rest, pins := q, clock := s.clock + (l.length + 2) }) := by
  obtain ⟨hreset, hvalid, hword⟩ := hp
  obtain ⟨hmin, hmax⟩ := hn
  have hcount : (0xFF :: 0xFF :: body : List Byte).length = n.toNat := hbody
  have hop : fieldOp (wordOf (.readPacket n)) ≠ opGetReg := by rw [wordOf_readPacket, fieldOp_commandWord]; decide
  have h0 := step_acceptReadPacket (rest := cycles (qs ++ [q]) ++ rest) hs ⟨hmin, hmax⟩ h (hreset p0 (by simp)) hvalid hword
    (hv p0 (by simp))
  obtain ⟨m, hm, h1⟩ := runSteps_consume (s := readStarted s n p0 (cycles (qs ++ [q]) ++ rest)) (ps := qs)
    (rest := cycles [q] ++ rest) (m0 := s.asm) (w := [])
    ⟨rfl, rfl, stored_nil _ _, rfl, by simp only [readStarted, List.length_nil]; omega, hmax⟩
    ⟨hu.available, hu.inside, hu.bytes⟩ (by simp [readStarted, cycles]) (noReset_of_subset hreset (by simp))
    (fun p hp => hv p (by simp [hp])) hlen hlast
  rw [hkept] at hm h1
  have h2 := step_checkPacket (s := consumed (readStarted s n p0 (cycles (qs ++ [q]) ++ rest)) (0xFF :: 0xFF :: body) m qs
      (cycles [q] ++ rest)) (body := body) (rest := rest) (if_pos hcount) rfl (hreset q (by simp)) (hv q (by simp)) hmax
    (Nat.eq_sub_of_add_eq hbody) (by omega) (stored_drop_two hm) hop rfl rfl
  refine ⟨m, hm, ?_⟩
  rw [runSteps_succ_of_step h0, ← hlen, runSteps_add h1, runSteps_one h2]
  have hheard : delivered qs = [] := delivered_eq_nil fun p hp => hv p (by simp [hp])
  have hclock : s.clock + 1 + qs.length + 1 = s.clock + (qs.length + 2) := by omega
  simp only [consumed, elapse, readStarted, hheard, List.append_nil, hcount, hclock]
  split <;> rfl

end Sys2Proof.Machine

section
open Sys2Proof Machine Safety Words

/-- Settles O41: of the captured bytes the reader keeps two markers and `body`, and `CHECK` judges `body`. -/
theorem readPacketResynchronizes : Obligations.ReadPacketResynchronizes := by
  intro s n noise body k p0 ps rest hs hn hnoise hk hbody hid havail hinside hcap hin hp hlen hv
  obtain ⟨qs, q, rfl⟩ : ∃ qs q, ps = qs ++ [q] := ⟨_, _, (List.dropLast_append_getLast (by rintro rfl; simp at hlen)).symm⟩
  have hL : (noise ++ List.replicate k 0xFF ++ body).length = noise.length + k + body.length := by simp [Nat.add_assoc]
  have hmin := hn.1
  rw [← hL] at havail hcap hlen ⊢
  have hbefore := congrArg List.length (foldl_takeByte_frame_dropLast hnoise hk hid (by omega))
  simp only [List.length_cons, List.length_dropLast] at hbefore
  obtain ⟨m, hm, hrun⟩ := runSteps_readPacket hs hn ⟨havail, hinside, hcap⟩ (foldl_takeByte_frame hnoise hk hid) hbody
    (by omega) hin hp (by simpa using hlen) hv
  exact ⟨_, hrun, by split <;> exact hm, by split <;> rfl⟩

end
end

section
/-! PROOFS. Every read and every command ends (spec/43_framer.md R121, spec/70_reset_and_hazards.md R199, R205). Two numbers go
down: how often the transport still has to be ready until `SEND` is over, and after that how many cycles the rest of the command takes
at most. -/

namespace Sys2Proof.Machine

open Safety Words

variable {s t : State}

/-! ### Cycles that make progress -/

/-- Where every cycle leads to the goal or still leaves cycles enough to wait for it, some cycle leads to it. -/
theorem runSteps_reaches {Waits : State → List Pins → Prop} {Goal : State → Prop} (hnil : ∀ s, Safety.Inv s → ¬ Waits s [])
    (hcons : ∀ s p ps u, Safety.Inv (sample p (advance s)) → Waits s (p :: ps) → EngineMove (sample p (advance s)) u →
      Goal (rxStep p.rxValid p.rxData u) ∨ Waits (rxStep p.rxValid p.rxData u) ps)
    {ps : List Pins} {rest : List Event} (hi : Inv s) (h : s.inputs = cycles ps ++ rest) (hreset : NoReset ps) (hw : Waits s ps) :
    ∃ k t, 0 < k ∧ k ≤ ps.length ∧ runSteps k s = .next t ∧ Goal t := by
  induction ps generalizing s with
  | nil => exact absurd hw (hnil s hi)
  | cons p ps ih =>
    obtain ⟨t, ht⟩ := noStepStops s hi
    have hin : (advance s).inputs = cycles ps ++ rest := by simp [advance, h, cycles]
    obtain ⟨u, hm, rfl⟩ := step_engine ⟨nextEvent_cons h, hreset p List.mem_cons_self⟩ ht
    rcases hcons s p ps u (hi.of_environment p s.rxin s.inputs.tail (s.clock + 1)) hw hm with hgoal | hwait
    · exact ⟨1, _, Nat.one_pos, by simp, runSteps_one ht, hgoal⟩
    · obtain ⟨-, -, -, huin, -⟩ := hm.untouched
      obtain ⟨k, t', _, hk, hrun, hgoal⟩ := ih (stepKeepsTheInvariant s _ hi ht) ((rxStep_inputs _ _ _).trans (huin.trans hin))
        (fun q hq => hreset q (List.mem_cons_of_mem p hq)) hwait
      exact ⟨k + 1, t', Nat.succ_pos k, Nat.succ_le_succ hk, (runSteps_succ_of_step ht).trans hrun, hgoal⟩

/-! ### The reader -/

/-- The moves of `READ`: the read fails, a byte is consumed, or an empty poll is counted (R116). -/
theorem EngineMove.read_cases (h : EngineMove s t) (hs : s.ph = .read) : t.ph = .idle ∨
    (s.rd < s.wr ∧ t.rd = s.rd + 1 ∧ t.waitc = 0 ∧ (t.ph = .read ∨ t.ph = .check)) ∨
    (s.waitc ≠ s.cfg.waitBudget ∧ t.rd = s.rd ∧ t.waitc = s.waitc + 1 ∧ t.ph = .read) := by
  cases h with
  | failRead => exact .inl rfl
  | skip _ hr | storeMore _ hr => exact .inr (.inl ⟨hr, rfl, rfl, .inl hs⟩)
  | storeLast _ hr => exact .inr (.inl ⟨hr, rfl, rfl, .inr rfl⟩)
  | poll _ hw => exact .inr (.inr ⟨hw, rfl, rfl, hs⟩)
  | _ => simp_all

/-- How many more cycles a read can stay in `READ`: an unused budget of empty polls for every byte that the buffer can still give, and
what is left of the running one (R121). -/
def readBudget (s : State) : Nat := (s.cfg.capDepth - s.rd) * (s.cfg.waitBudget + 1) + (s.cfg.waitBudget - s.waitc)

@[simp] theorem readBudget_rxStep (v : Bool) (b : Byte) (s : State) : readBudget (rxStep v b s) = readBudget s := by
  simp [readBudget]

/-- No read takes longer than one that begins with the whole buffer before it. -/
theorem readBudget_lt_max (s : State) : readBudget s < (s.cfg.capDepth + 1) * (s.cfg.waitBudget + 1) := by
  have hmul := Nat.mul_le_mul_right (s.cfg.waitBudget + 1) (Nat.sub_le s.cfg.capDepth s.rd)
  rw [readBudget, Nat.succ_mul]
  omega

/-- A consumed byte uses up one of the bytes to come, an empty poll one of the polls. -/
theorem readBudget_lt (hi : Inv s) (h : EngineMove s t) (hs : s.ph = .read) (ht : t.ph ≠ .idle) : readBudget t < readBudget s := by
  obtain ⟨-, hwr⟩ := hi.positionsInRange
  rw [readBudget, readBudget, h.cfg_eq]
  rcases h.read_cases hs with hq | ⟨hr, hrd, hw, _⟩ | ⟨hne, hrd, hw, _⟩
  · exact absurd hq ht
  · have hone : s.cfg.capDepth - s.rd = s.cfg.capDepth - (s.rd + 1) + 1 := by omega
    rw [hrd, hw, hone, Nat.succ_mul]
    omega
  · have := hi.waitBounded
    rw [hrd, hw]
    omega

/-- A read that leaves `READ` in one of the cycles `l` at the latest. -/
def ReadsWithin (s : State) (l : List Pins) : Prop := s.ph = .read ∧ readBudget s < l.length

/-- A move that stays in `READ` has a cycle less left. -/
theorem ReadsWithin.tail {p : Pins} {l : List Pins} (hr : ReadsWithin s (p :: l)) (hi : Inv s) (h : EngineMove s t)
    (ht : t.ph = .read) : ReadsWithin t l :=
  ⟨ht, (readBudget_lt hi h hr.1 (by simp [ht])).trans_le (Nat.le_of_lt_succ hr.2)⟩

@[simp] theorem readsWithin_rxStep (v : Bool) (b : Byte) (s : State) (l : List Pins) :
    ReadsWithin (rxStep v b s) l ↔ ReadsWithin s l := by
  simp [ReadsWithin]

/-! ### The whole command -/

/-- How often the transport has to be ready until `SEND` is over: twice at most in the two steps of the switch, once for a byte. -/
def readyNeeded (s : State) : Nat :=
  match s.ph with
  | .swtxA => Config.txDepth + 2
  | .swtxB => Config.txDepth + 1
  | .send => Config.txDepth - s.txpos
  | _ => 0

/-- How many cycles a command can still take after `SEND`. -/
def stepsNeeded (s : State) : Nat :=
  match s.ph with
  | .idle => 0
  | .check => 1
  | .read => readBudget s + 2
  | .swrxB => (s.cfg.capDepth + 1) * (s.cfg.waitBudget + 1) + 2
  | _ => (s.cfg.capDepth + 1) * (s.cfg.waitBudget + 1) + 3

theorem readyNeeded_le (s : State) : readyNeeded s ≤ 11 := by
  unfold readyNeeded Config.txDepth
  split <;> omega

theorem stepsNeeded_le (s : State) : stepsNeeded s ≤ (s.cfg.capDepth + 1) * (s.cfg.waitBudget + 1) + 3 := by
  have := readBudget_lt_max s
  unfold stepsNeeded
  split <;> omega

theorem stepsNeeded_pos (hs : s.ph ≠ .idle) : 0 < stepsNeeded s := by
  unfold stepsNeeded
  split
  · exact absurd ‹_› hs
  all_goals omega

@[simp] theorem readyNeeded_rxStep (v : Bool) (b : Byte) (s : State) : readyNeeded (rxStep v b s) = readyNeeded s := by
  simp [readyNeeded]

@[simp] theorem stepsNeeded_rxStep (v : Bool) (b : Byte) (s : State) : stepsNeeded (rxStep v b s) = stepsNeeded s := by
  simp [stepsNeeded]

/-- A move of a command that does not end with it brings the end of `SEND` nearer when the transport is ready, or is made after `SEND`
and brings the end of the command nearer. -/
inductive Progress (s t : State) : Prop
  | untilSent (hneed : 0 < readyNeeded s) (hready : readyNeeded t + s.pins.txReady.toNat ≤ readyNeeded s)
      (hsteps : stepsNeeded t ≤ stepsNeeded s)
  | afterSent (hready : readyNeeded t = 0) (hsteps : stepsNeeded t < stepsNeeded s)

theorem progress_of_read (hi : Inv s) (h : EngineMove s t) (hs : s.ph = .read) (ht : t.ph ≠ .idle) : Progress s t := by
  have hlt := readBudget_lt hi h hs ht
  have hph : t.ph = .read ∨ t.ph = .check := by
    rcases h.read_cases hs with hq | ⟨_, _, _, hq⟩ | ⟨_, _, _, hq⟩
    · exact absurd hq ht
    · exact hq
    · exact .inl hq
  rcases hph with hq | hq
  · exact .afterSent (by simp [readyNeeded, hq]) (by simpa [stepsNeeded, hs, hq] using hlt)
  · exact .afterSent (by simp [readyNeeded, hq]) (by simp [stepsNeeded, hs, hq])

theorem progress_of_move (hi : Inv s) (h : EngineMove s t) (hs : s.ph ≠ .idle) (ht : t.ph ≠ .idle) : Progress s t := by
  have hpos (hp : s.ph = .send) : s.txpos < Config.txDepth := by
    obtain ⟨hlen, -⟩ := hi.framed (.inr hp)
    have := hi.sendPositionInRange hp
    simp only [Config.txDepth]
    omega
  have hb := Bool.toNat_le s.pins.txReady
  have hmove := h
  cases h with
  | quiet hp | refuse hp | accept hp => exact absurd hp hs
  | enterTransmit | enterReceive | sendLastAll | failRead | failCheck | acceptFrame | finishGetReg => exact absurd rfl ht
  | skip hp | storeMore hp | storeLast hp | poll hp => exact progress_of_read hi hmove hp ht
  | leaveReceive hp =>
    exact .untilSent (by simp [readyNeeded, hp]) (by simp only [readyNeeded, hp]; omega) (by simp [stepsNeeded, hp])
  | startSend hp =>
    exact .untilSent (by simp [readyNeeded, hp]) (by simp only [readyNeeded, hp]; omega) (by simp [stepsNeeded, hp])
  | stall hp hr =>
    have := hpos hp
    exact .untilSent (by simp only [readyNeeded, hp]; omega) (by simp [readyNeeded, hp, hr]) (by simp [stepsNeeded, hp])
  | sendMore hp hr =>
    have := hpos hp
    exact .untilSent (by simp only [readyNeeded, hp]; omega) (by simp only [readyNeeded, emit_ph, clearStrobe_ph, hp]; omega)
      (by simp [stepsNeeded, hp])
  | sendLast hp hr =>
    have := hpos hp
    exact .untilSent (by simp only [readyNeeded, hp]; omega) (by simp only [readyNeeded, hp]; omega) (by simp [stepsNeeded, hp])
  | leaveTransmit hp => exact .afterSent (by simp [readyNeeded]) (by simp [stepsNeeded, hp])
  | startRead hp =>
    exact .afterSent (by simp [readyNeeded]) (by simpa [stepsNeeded, hp] using readBudget_lt_max _)

/-- The cycles `l` are enough for the command in progress: in the first ones the transport is ready often enough, and enough
follow. -/
def Enough (s : State) (l : List Pins) : Prop :=
  s.ph ≠ .idle ∧ ∃ ps qs, l = ps ++ qs ∧ readyNeeded s ≤ readyCount ps ∧ stepsNeeded s ≤ qs.length

theorem not_enough_nil : ¬ Enough s [] := by
  rintro ⟨hs, ps, qs, hl, _, hsteps⟩
  obtain ⟨-, rfl⟩ := List.append_eq_nil_iff.1 hl.symm
  exact absurd hsteps (Nat.not_le.2 (stepsNeeded_pos hs))

theorem readyCount_cons (p : Pins) (ps : List Pins) : readyCount (p :: ps) = readyCount ps + p.txReady.toNat := by
  cases hr : p.txReady <;> simp [readyCount, hr]

@[simp] theorem enough_rxStep (v : Bool) (b : Byte) (s : State) (l : List Pins) : Enough (rxStep v b s) l ↔ Enough s l := by
  simp [Enough]

/-- Progress in the first of enough cycles leaves enough. -/
theorem Enough.tail {l : List Pins} (he : Enough s (s.pins :: l)) (ht : t.ph ≠ .idle) (h : Progress s t) : Enough t l := by
  obtain ⟨-, ps, qs, hl, hready, hsteps⟩ := he
  refine ⟨ht, ?_⟩
  rcases List.cons_eq_append_iff.1 hl with ⟨rfl, rfl⟩ | ⟨ps, rfl, rfl⟩
  · cases h with
    | untilSent hneed => exact absurd hready (Nat.not_le.2 hneed)
    | afterSent hready' hsteps' => exact ⟨[], l, rfl, hready'.le, Nat.le_of_lt_succ (hsteps'.trans_le hsteps)⟩
  · rw [readyCount_cons] at hready
    refine ⟨ps, qs, rfl, ?_⟩
    cases h with
    | untilSent _ hready' hsteps' => exact ⟨by omega, hsteps'.trans hsteps⟩
    | afterSent hready' hsteps' => exact ⟨by omega, hsteps'.le.trans hsteps⟩

end Sys2Proof.Machine

section
open Sys2Proof Machine Safety Words

/-- Settles O47: the cycles that a read can stay in `READ` become fewer in every cycle in which it stays. -/
theorem everyReadEndsWithinItsBound : Obligations.EveryReadEndsWithinItsBound := by
  intro s ps rest hi hs hin hreset hlen
  have hstart : ReadsWithin s ps := ⟨hs, by rw [hlen, readBudget]; omega⟩
  have hreach := runSteps_reaches (Goal := fun t => t.ph ≠ .read) (fun _ _ hw => Nat.not_lt_zero _ hw.2)
    (fun s p ps u hi hw hm => ?_) hi hin hreset hstart
  · obtain ⟨k, t, -, hk, hrun, ht⟩ := hreach
    exact ⟨k, t, hk, hrun, ht⟩
  · rw [rxStep_ph, readsWithin_rxStep]
    exact (ne_or_eq u.ph .read).imp_right
      (ReadsWithin.tail (s := sample p (advance s)) hw hi hm)

/-- Settles O48: every move of a command that does not end with it is progress, and a move that ends it gives the response. -/
theorem everyCommandEnds : Obligations.EveryCommandEnds := by
  intro s ps qs rest hi hs hin hreset hready hlen
  refine runSteps_reaches (Waits := Enough) (Goal := fun t => t.ph = .idle ∧ t.rspValid = true) (fun _ _ => not_enough_nil)
    (fun s p l u hi he hm => ?_) hi hin hreset ⟨hs, ps, qs, rfl, (readyNeeded_le s).trans hready, hlen ▸ stepsNeeded_le s⟩
  rw [rxStep_ph, rxStep_rspValid, enough_rxStep]
  by_cases hu : u.ph = .idle
  · refine .inl ⟨hu, ?_⟩
    cases hm.responseMove with
    | ended hv => exact hv
    | silent _ hq => exact absurd (hq hu).1 he.1
  · exact .inr (Enough.tail (s := sample p (advance s)) he hu (progress_of_move hi hm he.1 hu))

end
end

section
/-! PROOFS. The serializer (spec/44_serializer.md): the phase `SEND` step by step (R140), and a write request that is sent, comes back on
the line and is read (R144): the three stretches put together from the statements about each. -/

namespace Sys2Proof.Machine

open Safety Words

variable {s : State}

/-! ### The phase `SEND` -/

theorem outputs_send {b : Byte} (hs : s.ph = .send) (hb : Memory.read s.txbuf s.txpos = some b) (idx : Byte) :
    (outputs s idx).txValid = true ∧ (outputs s idx).txData = some b := by
  simp [outputs, txData, hs, hb]

theorem engineStep_send_stalled (hs : s.ph = .send) (hr : s.pins.txReady = false) : engineStep s = .next (clearStrobe s) :=
  (engineStep_send hs).trans (sendStep_eq_next.2 (.inl ⟨hr, rfl⟩))

/-- A ready transport takes the presented byte; after the last one the command ends or the switch to receive begins. -/
theorem engineStep_send_ready {b : Byte} (hs : s.ph = .send) (hr : s.pins.txReady = true)
    (hb : Memory.read s.txbuf s.txpos = some b) (hpos : s.txpos < Config.txDepth) : engineStep s = .next
      (if s.txpos + 1 = s.txlen then afterLastByte { emit b (clearStrobe s) with txpos := s.txpos + 1 }
       else { emit b (clearStrobe s) with txpos := s.txpos + 1 }) := by
  have hread : readByte .txbuf (clearStrobe s) s.txpos = .ok b := readByte_of_written hpos hb
  rw [engineStep_send hs]
  by_cases hl : s.txpos + 1 = s.txlen
  · rw [if_pos hl, afterLastByte]
    cases ha : fieldAll s.cur with
    | true => exact sendStep_eq_next.2 (.inr ⟨hr, b, hread, .inr (.inl ⟨hl, ha, by simp [ha]⟩)⟩)
    | false => exact sendStep_eq_next.2 (.inr ⟨hr, b, hread, .inr (.inr ⟨hl, ha, by simp [ha]⟩)⟩)
  · rw [if_neg hl]
    exact sendStep_eq_next.2 (.inr ⟨hr, b, hread, .inl ⟨hl, rfl⟩⟩)

/-! ### No other phase looks at `tx_ready` -/

/-- Outside `SEND` the phases look at no pin, so the cycle looks at one only where the acceptance does. -/
theorem engineCycle_sample {accept : State → Result} {q : Pins} (hs : s.ph ≠ .send)
    (haccept : ∀ u, accept (sample q u) = andThen (accept u) (sample q)) :
    engineCycle accept (sample q s) = andThen (engineCycle accept s) (sample q) := by
  unfold engineCycle
  rw [sample_ph]
  cases hp : s.ph with
  | send => exact absurd hp hs
  | idle => exact haccept (clearStrobe s)
  | swtxA => exact swtxA_sample (s := clearStrobe s) q
  | swtxB => exact swtxB_sample (s := clearStrobe s) q
  | swrxA => exact swrxA_sample (s := clearStrobe s) q
  | swrxB => exact swrxB_sample (s := clearStrobe s) q
  | read => exact readStep_sample (s := clearStrobe s) q
  | check => exact checkStep_sample (s := clearStrobe s) q

theorem acceptAction_sample (i : Instr) (q : Pins) (s : State) : acceptAction i (sample q s) = sample q (acceptAction i s) := by
  cases i <;> rfl

theorem exec_sample {i : Instr} (hc : isCommand i = true) (q : Pins) (hs : s.ph ≠ .send) :
    exec i (sample q s) = andThen (exec i s) (sample q) := by
  by_cases hi : s.ph = .idle
  · rw [exec_idle hc hi, exec_idle (s := sample q s) hc hi, andThen_next, apply_ite (sample q), ← acceptAction_sample]
    rfl
  · rw [exec_busy hc hi, exec_busy (s := sample q s) hc hi]
    exact engineCycle_sample hs fun _ => rfl

/-- Outside `SEND` the engine looks at the presented word only. -/
theorem engineStep_sample_of_not_send {q : Pins} (hs : s.ph ≠ .send) (hv : q.cmdValid = s.pins.cmdValid)
    (hw : q.cmdWord = s.pins.cmdWord) : engineStep (sample q s) = andThen (engineStep s) (sample q) := by
  unfold engineStep
  rw [sample_pins, hv, hw]
  split
  · split
    next hd => exact exec_sample (isCommand_of_decodeCommand hd) q hs
    next => exact engineCycle_sample hs fun _ => rfl
  · exact engineCycle_sample hs fun _ => rfl

end Sys2Proof.Machine

section
open Sys2Proof Machine Safety Words

/-- Settles O22: the presented byte, the stalled and the ready cycle of `SEND`, and the other phases. -/
theorem sendStep : Obligations.SendStep := fun _ =>
  ⟨fun hs _ hb => ⟨outputs_send hs hb, engineStep_send_stalled hs, fun hr hpos => engineStep_send_ready hs hr hb hpos⟩,
    fun hs _ => engineStep_sample_of_not_send hs rfl rfl⟩

end

namespace Sys2Proof.Machine

open Safety Words

variable {s : State}

/-! ### The three stretches of a round trip -/

/-- The cycles after the acceptance, cut as the phases cut them: two of the switch, those of `SEND`, two of the switch back. -/
theorem sendCycles_split {send : List Pins} {n : Nat} (h : send.length = n + 4) :
    ∃ p1 p2 mid q0 q1, send = p1 :: p2 :: (mid ++ [q0, q1]) ∧ mid.length = n := by
  obtain _ | ⟨p1, _ | ⟨p2, l⟩⟩ := send
  · simp at h
  · simp at h
  · have hl : l.length = n + 2 := by simpa using h
    obtain ⟨q0, q1, hq⟩ : ∃ q0 q1, l.drop n = [q0, q1] := List.length_eq_two.1 (by simp [hl])
    exact ⟨p1, p2, l.take n, q0, q1, by rw [← hq, List.take_append_drop], by simp [hl]⟩

theorem readyCount_of_ready {l : List Pins} (h : ∀ p ∈ l, p.txReady = true) : readyCount l = l.length := by
  rw [readyCount, List.filter_eq_self.2 h]

/-- The block after a frame-sending command and with nothing heard meanwhile: it is idle and listens, and its buffer is empty. -/
structure Listens (s t : State) (rest : List Event) : Prop where
  phase : t.ph = .idle
  receiver : t.rxEn = true
  written : t.wr = 0
  consumed : t.rd = 0
  config : t.cfg = s.cfg
  window : t.asm = s.asm
  trace : t.inputs = rest

/-- With a transport that is always ready and a silent line the frame goes out in one cycle a byte (R142). -/
theorem runSteps_sendsReady {i : Instr} {p0 : Pins} {send : List Pins} {rest : List Event} (hlegal : s.cfg.Legal)
    (hs : s.ph = .idle) (hf : frameOf s.cfg i ≠ []) (hall : hasAll i = false) (hget : isGetReg i = false) (hr : InRange s.cfg i)
    (h : s.inputs = cycles (p0 :: send) ++ rest) (hp : Presents i p0 send) (hlen : send.length = (frameOf s.cfg i).length + 4)
    (hready : ∀ p ∈ send, p.txReady = true) (hv : ∀ p ∈ send, p.rxValid = false) :
    ∃ t, runSteps ((frameOf s.cfg i).length + 5) s = .next t ∧ t.txlog = s.txlog ++ frameOf s.cfg i ∧ Listens s t rest := by
  obtain ⟨p1, p2, mid, q0, q1, rfl, hmid⟩ := sendCycles_split hlen
  have hready' : ∀ p ∈ mid, p.txReady = true := fun p hp => hready p (by simp [hp])
  have hne : mid ≠ [] := by rintro rfl; exact hf (List.length_eq_zero_iff.1 hmid.symm)
  have hlast : mid.getLast?.map (·.txReady) = some true := by
    rw [List.getLast?_eq_getLast_of_ne_nil hne, Option.map_some, hready' _ (List.getLast_mem hne)]
  have hq1 : q1.rxValid = false := hv q1 (by simp)
  obtain ⟨t, hrun, -, -, ht⟩ := frameIsSentThenReceive s i p0 p1 p2 q0 q1 mid rest hlegal hs hf hall hget hr h hp
    ((readyCount_of_ready hready').trans hmid) hlast
  rw [hmid] at hrun
  rw [ht] at hrun
  exact ⟨_, hrun, rfl, rfl, rfl, by simp [ended, hq1], rfl, rfl, rfl, rfl⟩

/-- A frame on the line that the empty buffer has room for stands in it whole (R105), and the reader has yet to see it. -/
theorem Listens.step_line {t : State} {l : List Byte} {rest : List Event} (ht : Listens s t (.line l :: rest))
    (hroom : l.length ≤ s.cfg.capDepth) : ∃ u, step t = .next u ∧ Unread u l ∧ u.ph = .idle ∧ u.cfg = s.cfg ∧ u.asm = s.asm ∧
      u.txlog = t.txlog ∧ u.inputs = rest := by
  obtain ⟨hs, hrx, hwr, hrd, hcfg, hasm, h⟩ := ht
  refine ⟨_, (Machine.step_line h).trans ((runLine_eq ..).trans (congrArg _ (receiveBytes_enabled _ _ (by exact hrx)))),
    ⟨?_, ?_, fun j hj => ?_⟩, hs, hcfg, hasm, rfl, rfl⟩
  · simp [hrd, hwr, hcfg, hroom]
  · simp [hwr, hcfg]
  · simpa [hrd, hwr, hcfg, List.take_of_length_le hroom, hj] using stored_writeList_at t.cap 0 l j

/-- A `READ_PACKET` has just accepted the frame `l`, which stands in `ASM` over what `m0` was there before. -/
structure FrameRead (t : State) (m0 : Memory) (l : List Byte) : Prop where
  phase : t.ph = .idle
  strobe : t.rspValid = true
  ok : t.rspOk = true
  valid : t.frameValid = true
  lengthOk : t.lenOk = true
  count : t.cnt = l.length
  window : Stored t.asm m0 0 l

/-- What a reader of a frame that `BuildFrame` built relies on: after the markers come an id that is no marker, the number of the bytes that
follow the length byte, and a checksum that makes the sum right (R133, R143). -/
theorem frameBytes_body {id : Byte} (inst : Byte) {params : List Byte} (hid : id ≠ 0xFF) (hn : params.length + 6 < 256) :
    ∃ body, frameBytes id inst params = 0xFF :: 0xFF :: body ∧ body.length = params.length + 4 ∧ body.head? ≠ some 0xFF ∧
      total body % 256 = 255 ∧ (body[1]?).map (·.toNat) = some (params.length + 2) := by
  refine ⟨(frameBytes id inst params).drop 2, rfl, by simp, by simpa [frameBytes] using hid,
    frameSumOk_iff_total.1 (frameSumOk_frameBytes id inst params), ?_⟩
  have hmod : (params.length + 2) % 256 = params.length + 2 := Nat.mod_eq_of_lt (by omega)
  simpa [frameBytes] using hmod

/-- A frame that `BuildFrame` built and that stands next in the buffer is read and accepted, its length byte included (R124, R125, R133). -/
theorem runSteps_readsFrame {id inst n : Byte} {params : List Byte} {r0 : Pins} {read : List Pins} {rest : List Event}
    (hs : s.ph = .idle) (hid : id ≠ 0xFF) (hn : params.length + 6 = n.toNat) (hu : Unread s (frameBytes id inst params))
    (hdepth : n.toNat ≤ s.cfg.capDepth) (h : s.inputs = cycles (r0 :: read) ++ rest) (hp : Presents (.readPacket n) r0 read)
    (hlen : read.length = params.length + 7) (hv : ∀ p ∈ r0 :: read, p.rxValid = false) :
    ∃ t, runSteps (params.length + 8) s = .next t ∧ t.txlog = s.txlog ∧ FrameRead t s.asm (frameBytes id inst params) := by
  obtain ⟨body, hframe, hbody, hhead, hsum, hlength⟩ := frameBytes_body inst (params := params) hid (by have := n.isLt; omega)
  have noNoise : ([] : List Byte).length = 0 := rfl
  obtain ⟨available, inside, bytes⟩ := hu
  simp only [hframe, List.length_cons] at available bytes
  obtain ⟨t, hrun, hasm, ht⟩ := readPacketResynchronizes s n [] body 2 r0 read rest hs ⟨by omega, hdepth⟩ (by simp) le_rfl (by omega)
    hhead (by omega) inside (fun j hj => bytes j (by omega)) h hp (by omega) hv
  have hsteps : ([] : List Byte).length + 2 + body.length + 2 = params.length + 8 := by omega
  rw [if_pos hsum] at ht
  refine ⟨t, hsteps ▸ hrun, by rw [ht]; rfl, ?_⟩
  rw [hframe]
  constructor
  case window => exact hasm
  all_goals rw [ht]
  case valid => exact decide_eq_true hsum
  case lengthOk => exact decide_eq_true ⟨hsum, hlength.trans (congrArg some (by omega))⟩
  case count => exact hn.symm.trans (by rw [← hframe, frameBytes_length])
  all_goals rfl

/-- The frame that a command sends, delivered to the block's own receiver, is read back by a `READ_PACKET` of its size (R144). -/
theorem runSteps_roundTrip {i : Instr} {id inst n : Byte} {params : List Byte} {p0 r0 : Pins} {send read : List Pins}
    {rest : List Event} (hlegal : s.cfg.Legal) (hs : s.ph = .idle) (hall : hasAll i = false) (hget : isGetReg i = false)
    (hr : InRange s.cfg i) (hf : frameOf s.cfg i = frameBytes id inst params) (hid : id ≠ 0xFF) (hn : params.length + 6 = n.toNat)
    (hdepth : n.toNat ≤ s.cfg.capDepth)
    (h : s.inputs = cycles (p0 :: send) ++ .line (frameBytes id inst params) :: cycles (r0 :: read) ++ rest)
    (hp : Presents i p0 send) (hp' : Presents (.readPacket n) r0 read) (hlen : send.length = params.length + 10)
    (hlen' : read.length = params.length + 7) (hready : ∀ p ∈ send, p.txReady = true)
    (hv : ∀ p ∈ p0 :: send ++ r0 :: read, p.rxValid = false) :
    ∃ t, runSteps (params.length + 11 + (1 + (params.length + 8))) s = .next t ∧
      t.txlog = s.txlog ++ frameBytes id inst params ∧ FrameRead t s.asm (frameBytes id inst params) := by
  have hsize := frameBytes_length id inst params
  rw [List.append_assoc] at h
  obtain ⟨t, hrun, hlog, ht⟩ := runSteps_sendsReady hlegal hs (by rw [hf]; exact List.cons_ne_nil _ _) hall hget hr h hp
    (by rw [hf, hsize, hlen]) hready fun p hp => hv p (by simp [hp])
  rw [hf, hsize] at hrun
  obtain ⟨u, hline, hu, hsu, hcfg, hasm, hlog', hin⟩ := ht.step_line (by omega)
  obtain ⟨v, hrun', hlog'', hread⟩ := runSteps_readsFrame hsu hid hn hu (hcfg ▸ hdepth) hin hp' hlen'
    fun p hp => hv p (List.mem_append_right _ hp)
  refine ⟨v, ?_, by rw [hlog'', hlog', hlog, hf], hasm ▸ hread⟩
  rw [runSteps_add hrun, runSteps_add (runSteps_one hline), hrun']

end Sys2Proof.Machine

section
open Sys2Proof Machine Safety Words

/-- Settles O43: the frame has two params, the address and the value. -/
theorem byteWriteRoundTrip : Obligations.ByteWriteRoundTrip := by
  intro s id addr val p0 r0 send read rest hlegal hs hid hin hp hp' hlen hlen' hready hv
  have hframe : frameBytes id s.cfg.instWrite [addr, val] = request8 id s.cfg.instWrite addr val := request8_eq ..
  obtain ⟨t, hrun, hlog, ht⟩ := runSteps_roundTrip (i := .buildWrite false id addr val) (n := 8) hlegal hs rfl rfl hid hframe.symm hid rfl
    hlegal.1 (by rw [hframe]; exact hin) hp hp' hlen hlen' hready hv
  rw [hframe] at hlog ht
  exact ⟨t, hrun, hlog, ht.phase, ht.strobe, ht.ok, ht.valid, ht.lengthOk, ht.count, ht.window 2, ht.window 4, ht.window 5,
    ht.window 6⟩

/-- Settles O44: the frame has three params, the address and the two bytes of the value, the low one first. -/
theorem wordWriteRoundTrip : Obligations.WordWriteRoundTrip := by
  intro s id addr val p0 r0 send read rest hlegal hdepth hs hid hin hp hp' hlen hlen' hready hv
  have hframe : frameBytes id s.cfg.instWrite [addr, low val, high val] =
      request9 id s.cfg.instWrite addr (low val) (high val) := request9_eq ..
  obtain ⟨t, hrun, hlog, ht⟩ := runSteps_roundTrip (i := .buildWrite2 false id addr val) (n := 9) hlegal hs rfl rfl hid hframe.symm hid rfl
    hdepth (by rw [hframe]; exact hin) hp hp' hlen hlen' hready hv
  rw [hframe] at hlog ht
  have hval : (word16 (low val) (high val)).toNat = val.toNat := congrArg BitVec.toNat (word16_low_high val)
  exact ⟨t, hrun, hlog, ht.phase, ht.strobe, ht.ok, ht.valid, ht.lengthOk, ht.count, ht.window 2, ht.window 4, ht.window 5,
    low val, high val, ht.window 6, ht.window 7, (word16_toNat ..).symm.trans hval⟩

end
end

section
/-! PROOFS. The acceptance of `GET_LAST_ERROR` (spec/45_register_access_init.md R155), which is the whole command. -/

namespace Sys2Proof.Machine

open Words

variable {s : State}

theorem exec_getLastError (hs : s.ph = .idle) :
    exec .getLastError s = .next (ended true .none (0#8 ++ s.lasterr) { s with cur := wordOf .getLastError }) := by
  rw [exec_of_inRange (i := .getLastError) rfl hs trivial, ← zext16_eq_append]
  rfl

end Sys2Proof.Machine

section
open Sys2Proof Machine Safety Words

/-- Settles O14: the acceptance ends the command, in the phase in which it found the block. -/
theorem getLastErrorReturnsTheStatus : Obligations.GetLastErrorReturnsTheStatus := by
  intro s hs
  rw [exec_getLastError hs, ended, ← hs]
  rfl

end
end

section
/-! PROOFS. A read that goes on while its bytes arrive (spec/10_state.md R15, spec/43_framer.md R116 to R120). A cycle in which a byte
arrives is the same cycle on a silent line with the byte captured after it, so what the reader does to bytes that are in the buffer
says what it does to these. -/

namespace Sys2Proof.Machine

open Safety Words

variable {s u : State}

/-! ### A cycle in which a byte arrives -/

/-- The same inputs with no byte arriving. -/
def silenced (p : Pins) : Pins := { p with rxValid := false }

/-- The state `u` that a silent cycle leaves, when the byte of `p` arrives in that cycle and there is room for it (R105). -/
def arrived (p : Pins) (u : State) : State :=
  { u with cap := Memory.write u.cap u.wr p.rxData, wr := u.wr + 1, rxin := u.rxin ++ [p.rxData], pins := p }

/-- The engine does not see the byte of its own cycle (R15). -/
theorem step_arrival {p : Pins} {rest : List Event} (hs : s.ph ≠ .idle) (h : s.inputs = .cycle p :: rest) (hp : p.rst = false)
    (hv : p.rxValid = true) (hu : step { s with inputs := .cycle (silenced p) :: rest } = .next u) (hrx : u.rxEn = true)
    (hroom : u.wr < u.cfg.capDepth) : step s = .next (arrived p u) := by
  have he : engineStep { s with inputs := rest, clock := s.clock + 1, pins := p } =
      andThen (engineStep { s with inputs := rest, clock := s.clock + 1, pins := silenced p }) (sample p) :=
    engineStep_sample_busy (s := { s with inputs := rest, clock := s.clock + 1, pins := silenced p }) hs rfl
  rw [step_cycle (p := silenced p) rfl hp] at hu
  obtain ⟨v, hstep, rfl⟩ := andThen_eq_next.1 hu
  rw [step_cycle h hp, he, hstep, andThen_next, andThen_next, hv, rxStep_room (by exact hrx) (by exact hroom)]
  rfl

/-- With a byte available the reader does not look at `WAITC` (R116). -/
theorem runSteps_waitc {b : Byte} {l : List Byte} {ps : List Pins} {rest : List Event} (hs : s.ph = .read) (hu : Unread s (b :: l))
    (h : s.inputs = cycles ps ++ rest) (hreset : NoReset ps) (hne : ps ≠ []) (n k : Nat) :
    runSteps (k + 1) { s with waitc := n } = runSteps (k + 1) s := by
  obtain ⟨p, ps, rfl⟩ := List.exists_cons_of_ne_nil hne
  have hp : p.rst = false := hreset p List.mem_cons_self
  have hr : s.rd < s.wr := lt_of_lt_of_le (by simp) hu.available
  have hd : s.rd < s.cfg.capDepth := hr.trans_le hu.inside
  have hb : Memory.read s.cap s.rd = some b := hu.bytes 0 (by simp)
  rw [runSteps, runSteps, step_cycle h hp, step_cycle (by exact h) hp,
    engineStep_consume (by exact hs) (by exact hr) (by exact hd) (by exact hb),
    engineStep_consume (by exact hs) (by exact hr) (by exact hd) (by exact hb)]

/-! ### One byte a cycle -/

/-- The state but for what the reader and the line receiver write in `READ`, and for what belongs to the environment. -/
def besidesReader (s : State) : State :=
  { s with cap := [], wr := 0, rd := 0, asm := [], cnt := 0, waitc := 0, ph := .read, rspValid := false, rxin := [], inputs := [],
           pins := Pins.quiet, clock := 0 }

theorem expect_eq_of_besidesReader {t : State} (h : besidesReader t = besidesReader s) : t.expect = s.expect :=
  (congrArg State.expect h :)

theorem cfg_eq_of_besidesReader {t : State} (h : besidesReader t = besidesReader s) : t.cfg = s.cfg := (congrArg State.cfg h :)

/-- A read that the line feeds: of the bytes so far it has kept `w`, and `b`, the last one, is the only one in the buffer. -/
structure Fed (s : State) (m0 : Memory) (w : List Byte) (b : Byte) : Prop where
  assembled : Assembled s m0 w
  unread : Unread s [b]
  only : s.wr = s.rd + 1
  receiver : s.rxEn = true

/-- A byte that arrives in the drained buffer. -/
theorem fed_arrived {m0 : Memory} {w : List Byte} (ha : Assembled u m0 w) (hempty : u.wr = u.rd) (hroom : u.wr < u.cfg.capDepth)
    (hrx : u.rxEn = true) (p : Pins) : Fed (arrived p u) m0 w p.rxData where
  assembled := ⟨ha.phase, ha.polls, ha.window, ha.count, ha.incomplete, ha.fits⟩
  unread :=
    { available := (congrArg (· + 1) hempty).ge
      inside := hroom
      bytes := fun j hj => by
        obtain rfl : j = 0 := Nat.lt_one_iff.1 hj
        simp [arrived, hempty] }
  only := congrArg (· + 1) hempty
  receiver := hrx

/-- A cycle that takes the byte in the buffer and leaves the one that arrives. -/
theorem Fed.step {m0 : Memory} {w : List Byte} {b : Byte} {p : Pins} {rest : List Event} (hf : Fed s m0 w b)
    (h : s.inputs = .cycle p :: rest) (hp : p.rst = false) (hv : p.rxValid = true) (hroom : s.wr < s.cfg.capDepth)
    (hlt : (takeByte w b).length < s.expect) : ∃ t, Machine.step s = .next t ∧ Fed t m0 (takeByte w b) p.rxData ∧
      t.wr = s.wr + 1 ∧ t.inputs = rest ∧ besidesReader t = besidesReader s := by
  obtain ⟨⟨hs, hw, hm0, hcnt, hinc, hfits⟩, ⟨havail, hinside, hbytes⟩, honly, hrx⟩ := hf
  have ha : Assembled { s with inputs := .cycle (silenced p) :: rest } m0 w := ⟨hs, hw, hm0, hcnt, hinc, hfits⟩
  obtain ⟨m, hm, h1⟩ := step_consume ha ⟨havail, hinside, hbytes⟩ rfl hp rfl
  exact ⟨_, step_arrival (by simp [hs]) h hp hv h1 hrx hroom, fed_arrived (ha.next hm hlt) honly hroom hrx p, rfl, rfl, rfl⟩

/-- After a stretch of `READ` from `s` the window is `w`, over what `m0` was in `ASM` before. -/
structure WindowRead (s t : State) (m0 : Memory) (w : List Byte) (rest : List Event) : Prop where
  window : Stored t.asm m0 0 w
  count : t.cnt = w.length
  phase : t.ph = if w.length = s.expect then .check else .read
  trace : t.inputs = rest
  others : besidesReader t = besidesReader s

theorem WindowRead.trans {t : State} {m0 : Memory} {w : List Byte} {rest : List Event} (h : WindowRead u t m0 w rest)
    (hu : besidesReader u = besidesReader s) : WindowRead s t m0 w rest where
  window := h.window
  count := h.count
  phase := by rw [h.phase, expect_eq_of_besidesReader hu]
  trace := h.trace
  others := h.others.trans hu

/-- The reader over bytes that arrive one a cycle, and a silent cycle for the last one; the frame is complete with it at the earliest. -/
theorem Fed.runSteps {m0 : Memory} {w : List Byte} {b : Byte} {ps : List Pins} {q : Pins} {rest : List Event} (hf : Fed s m0 w b)
    (h : s.inputs = cycles (ps ++ [q]) ++ rest) (hreset : NoReset (ps ++ [q])) (hv : ∀ p ∈ ps, p.rxValid = true)
    (hq : q.rxValid = false) (hroom : s.wr + ps.length ≤ s.cfg.capDepth)
    (hlast : ((b :: ps.map (·.rxData)).dropLast.foldl takeByte w).length < s.expect) :
    ∃ t, Safety.runSteps (ps.length + 1) s = .next t ∧
      WindowRead s t m0 ((b :: ps.map (·.rxData)).foldl takeByte w) rest := by
  induction ps generalizing s w b with
  | nil =>
    obtain ⟨m, hm, h1⟩ := step_consume hf.assembled hf.unread h (hreset q (by simp)) hq
    exact ⟨_, runSteps_one h1, hm, rfl, rfl, rfl, rfl⟩
  | cons p ps ih =>
    rw [List.length_cons] at hroom
    obtain ⟨u, h1, hu, hwr, hin, hothers⟩ := hf.step (rest := cycles (ps ++ [q]) ++ rest) h (hreset p (by simp)) (hv p (by simp))
      (by omega) ((length_le_foldl_takeByte _ _).trans_lt hlast)
    have hexpect : u.expect = s.expect := expect_eq_of_besidesReader hothers
    have hcfg : u.cfg = s.cfg := cfg_eq_of_besidesReader hothers
    obtain ⟨t, h2, ht⟩ := ih hu hin (fun p' hp' => hreset p' (List.mem_cons_of_mem p hp'))
      (fun p' hp' => hv p' (List.mem_cons_of_mem p hp')) (by rw [hwr, hcfg]; omega) (by rw [hexpect]; exact hlast)
    exact ⟨t, (runSteps_succ_of_step h1).trans h2, ht.trans hothers⟩

/-- A read that begins with a drained buffer: one empty poll, and from then on a byte a cycle. -/
theorem runSteps_answered {m0 : Memory} {p q : Pins} {ps : List Pins} {rest : List Event} (ha : Assembled s m0 [])
    (hempty : s.wr = s.rd) (ho : s.ovf = false) (hrx : s.rxEn = true) (hbudget : 0 < s.cfg.waitBudget)
    (h : s.inputs = cycles (p :: ps ++ [q]) ++ rest) (hreset : NoReset (p :: ps ++ [q])) (hv : ∀ p' ∈ p :: ps, p'.rxValid = true)
    (hq : q.rxValid = false) (hroom : s.wr + (p :: ps).length ≤ s.cfg.capDepth)
    (hlast : (((p :: ps).map (·.rxData)).dropLast.foldl takeByte []).length < s.expect) :
    ∃ t, runSteps ((p :: ps).length + 1) s = .next t ∧
      WindowRead s t m0 (((p :: ps).map (·.rxData)).foldl takeByte []) rest := by
  rw [List.length_cons] at hroom
  have hdrained : s.wr < s.cfg.capDepth := by omega
  have hbudget' : s.waitc ≠ s.cfg.waitBudget := by rw [ha.polls]; exact hbudget.ne
  have hpoll := step_emptyPoll (s := { s with inputs := .cycle (silenced p) :: (cycles (ps ++ [q]) ++ rest) }) ha.phase hempty.le
    rfl (hreset p (by simp)) (.inl rfl) ho hbudget'
  have h1 := step_arrival (by simp [ha.phase]) h (hreset p (by simp)) (hv p (by simp)) hpoll hrx hdrained
  have hfed : Fed (arrived p (elapse s [silenced p] (cycles (ps ++ [q]) ++ rest))) m0 [] p.rxData :=
    fed_arrived (u := elapse s [silenced p] (cycles (ps ++ [q]) ++ rest))
      ⟨ha.phase, ha.polls, ha.window, ha.count, ha.incomplete, ha.fits⟩ hempty hdrained hrx p
  have hreset' : NoReset (ps ++ [q]) := fun p' hp' => hreset p' (List.mem_cons_of_mem p hp')
  have hwaitc := runSteps_waitc hfed.assembled.phase hfed.unread rfl hreset' (by simp) (s.waitc + 1) ps.length
  obtain ⟨t, h2, ht⟩ := hfed.runSteps rfl hreset' (fun p' hp' => hv p' (List.mem_cons_of_mem p hp')) hq
    (show s.wr + 1 + ps.length ≤ s.cfg.capDepth by omega) hlast
  exact ⟨t, (runSteps_succ_of_step h1).trans (hwaitc.trans h2), ht.trans rfl⟩

end Sys2Proof.Machine
end

section
/-! PROOFS. A whole `GET_REG` with a transport that is always ready and a device that answers one byte a cycle
(spec/45_register_access_init.md R147 to R152): the request, the answer, and its `CHECK`. -/

namespace Sys2Proof.Machine

open Safety Words

variable {s : State}

/-! ### The request -/

theorem getLast?_of_ready {l : List Pins} (h : ∀ p ∈ l, p.txReady = true) (hne : l ≠ []) :
    l.getLast?.map (·.txReady) = some true := by
  rw [List.getLast?_eq_getLast_of_ne_nil hne, Option.map_some, h _ (List.getLast_mem hne)]

/-- The block when the reader of a `GET_REG` has just started on an empty buffer (R149): its request is sent. -/
def awaitsAnswer (s : State) (id addr width : Byte) (cap txbuf : Memory) (heard : List Byte) (q : Pins) (rest : List Event) : State :=
  { s with
    dir := .receive, txEn := false, rxEn := true, auxSel := selectorAfter s (.getReg id addr width), wr := 0, rd := 0, ovf := false,
    cur := wordOf (.getReg id addr width), cap := cap, txbuf := txbuf, txlen := 8, txpos := 8,
    txlog := s.txlog ++ request8 id s.cfg.instRead addr width, expect := width.toNat + 6, cnt := 0, waitc := 0, frameValid := false,
    lenOk := false, ph := .read, rspValid := false, rxin := s.rxin ++ heard, inputs := rest, pins := q, clock := s.clock + 13 }

/-- With a transport that is always ready the request takes 13 cycles; with no byte in the last of them the buffer is empty then. -/
theorem runSteps_sendsRequest {id addr width : Byte} {p0 q : Pins} {send : List Pins} {rest : List Event} (hlegal : s.cfg.Legal)
    (hs : s.ph = .idle) (hr : InRange s.cfg (.getReg id addr width)) (h : s.inputs = cycles (p0 :: (send ++ [q])) ++ rest)
    (hp : Presents (.getReg id addr width) p0 (send ++ [q])) (hlen : send.length = 11) (hready : ∀ p ∈ send, p.txReady = true)
    (hq : q.rxValid = false) :
    ∃ cap txbuf heard, runSteps 13 s = .next (awaitsAnswer s id addr width cap txbuf heard q rest) := by
  obtain ⟨p1, p2, mid, q0, q1, hsplit, hmid⟩ := sendCycles_split (send := send ++ [q]) (n := 8) (by simp [hlen])
  obtain ⟨rfl, hq1⟩ : send = p1 :: p2 :: (mid ++ [q0]) ∧ [q] = [q1] := List.append_inj' (by simpa using hsplit) rfl
  obtain rfl : q = q1 := List.singleton_inj.1 hq1
  rw [hsplit] at h hp
  have hready' : ∀ p ∈ mid, p.txReady = true := fun p hp => hready p (by simp [hp])
  obtain ⟨t, hrun, -, -, ht⟩ := getRegSendsThenReads s id addr width p0 p1 p2 q0 q mid rest hlegal hs hr h hp
    ((readyCount_of_ready hready').trans hmid) (getLast?_of_ready hready' (List.ne_nil_of_length_pos (by omega)))
  rw [hmid, hq] at ht
  rw [hmid] at hrun
  exact ⟨t.cap, t.txbuf, _, hrun.trans (congrArg Host.Outcome.next ht)⟩

/-! ### `CHECK` of the answer -/

/-- The cycle of `CHECK` at the end of a `GET_REG` whose answer is `body` from its id on and holds the value `v` (R124, R152). -/
theorem step_checkAnswer {body : List Byte} {length status : Byte} {v : Word16} {n : Nat} {p : Pins} {rest : List Event}
    (hs : s.ph = .check) (h : s.inputs = .cycle p :: rest) (hp : p.rst = false) (hv : p.rxValid = false) (hcap : s.expect ≤ s.cfg.capDepth)
    (hn : s.expect = n + 4) (hbody : body.length = s.expect - 2) (hasm : ∀ k < body.length, Memory.read s.asm (2 + k) = body[k]?)
    (ho : fieldOp s.cur = opGetReg) (hlength : body[1]? = some length) (hstatus : body[2]? = some status)
    (hvalue : registerValue s = .ok v) :
    step s = .next (if total body % 256 = 255 then
        ended true .none v { s with
          frameValid := true, lenOk := decide (length.toNat = n), lasterr := status, inputs := rest, pins := p,
          clock := s.clock + 1 }
      else failed .checksum { s with inputs := rest, pins := p, clock := s.clock + 1 }) := by
  have hlenOk : lengthAgrees length s.expect = decide (length.toNat = n) := by
    rw [lengthAgrees_eq (by omega), hn, Nat.add_sub_cancel]
  rw [step_cycle h hp, hv]
  by_cases hsum : total body % 256 = 255
  · rw [if_pos hsum, engineStep_getRegFinish (by exact hcap) (by exact hbody) (by exact hasm) (by exact hs) hsum hlength (by exact ho)
      hstatus (by exact hvalue), andThen_next, rxStep_false, hlenOk]
  · rw [if_neg hsum, engineStep_wrongSum (by exact hcap) (by exact hbody) (by exact hasm) (by exact hs) hsum, andThen_next,
      rxStep_false]

/-- The value in an answer of width 1 or 2, little-endian (R152). -/
theorem registerValue_of_window {body : List Byte} {lo hi : Byte} (hcap : s.expect ≤ s.cfg.capDepth)
    (hbody : body.length = s.expect - 2) (hasm : ∀ k < body.length, Memory.read s.asm (2 + k) = body[k]?) (hlo : body[3]? = some lo)
    (hhi : fieldDataLo s.cur ≠ 1 → body[4]? = some hi) :
    registerValue s = .ok (if fieldDataLo s.cur = 1 then 0#8 ++ lo else hi ++ lo) := by
  have hlo' : readByte .asm s 5 = .ok lo := readByte_window hcap hbody hasm hlo
  split
  · exact registerValue_byte ‹_› hlo'
  · rw [registerValue_word ‹_› hlo' (readByte_window hcap hbody hasm (hhi ‹_›)), ← word16_eq_ofNat, word16]

/-! ### The exchange -/

/-- A read on a drained buffer to which a whole frame of the expected size comes, a byte a cycle (R117, R118, R122). -/
theorem runSteps_takesFrame {m0 : Memory} {body : List Byte} {arrive : List Pins} {q : Pins} {rest : List Event}
    (ha : Assembled s m0 []) (hempty : s.wr = s.rd) (hstart : s.wr = 0) (ho : s.ovf = false) (hrx : s.rxEn = true)
    (hbudget : 0 < s.cfg.waitBudget) (h : s.inputs = cycles (arrive ++ [q]) ++ rest) (hreset : NoReset (arrive ++ [q]))
    (hv : ∀ p ∈ arrive, p.rxValid = true) (hq : q.rxValid = false) (hframe : arrive.map (·.rxData) = 0xFF :: 0xFF :: body)
    (hbody : body.length + 2 = s.expect) (hlong : 1 < body.length) (hid : body.head? ≠ some 0xFF) :
    ∃ t, runSteps (s.expect + 1) s = .next t ∧ t.ph = .check ∧ WindowRead s t m0 (0xFF :: 0xFF :: body) rest := by
  obtain ⟨a, as, rfl⟩ : ∃ a as, arrive = a :: as := List.exists_cons_of_ne_nil (by rintro rfl; simp at hframe)
  have hsize : (a :: as).length = s.expect := by
    rw [← List.length_map (f := (·.rxData)), hframe, List.length_cons, List.length_cons, hbody]
  have hkept : (0xFF :: 0xFF :: body).foldl takeByte [] = 0xFF :: 0xFF :: body :=
    foldl_takeByte_frame (noise := []) (by simp) le_rfl hid
  have hbefore : (0xFF :: 0xFF :: body).dropLast.foldl takeByte [] = 0xFF :: 0xFF :: body.dropLast :=
    foldl_takeByte_frame_dropLast (noise := []) (by simp) le_rfl hid hlong
  obtain ⟨t, hrun, ht⟩ := runSteps_answered ha hempty ho hrx hbudget h hreset hv hq
    (by rw [hstart, hsize, Nat.zero_add]; exact ha.fits)
    (by rw [hframe, hbefore, List.length_cons, List.length_cons, List.length_dropLast]; omega)
  rw [hframe, hkept] at ht
  exact ⟨t, hsize ▸ hrun, ht.phase.trans (if_pos hbody), ht⟩

/-- A device answers a `GET_REG` with a frame that is `body` from its id on, a byte a cycle from the cycle after `SWRX_B` on. `u` is the
state at the end of `CHECK` but for what its verdict writes. -/
theorem runSteps_getRegAnswered {id addr width length status lo hi : Byte} {body : List Byte} {p0 q r0 r1 : Pins}
    {send arrive : List Pins} {rest : List Event} (hlegal : s.cfg.Legal) (hs : s.ph = .idle)
    (hr : InRange s.cfg (.getReg id addr width)) (h : s.inputs = cycles (p0 :: (send ++ q :: (arrive ++ [r0, r1]))) ++ rest)
    (hp : Presents (.getReg id addr width) p0 (send ++ q :: (arrive ++ [r0, r1]))) (hlen : send.length = 11)
    (hready : ∀ p ∈ send, p.txReady = true) (hq : q.rxValid = false) (hr0 : r0.rxValid = false) (hr1 : r1.rxValid = false)
    (hv : ∀ p ∈ arrive, p.rxValid = true) (hframe : arrive.map (·.rxData) = 0xFF :: 0xFF :: body)
    (hbody : body.length = width.toNat + 4) (hid : body.head? ≠ some 0xFF) (hlength : body[1]? = some length)
    (hstatus : body[2]? = some status) (hlo : body[3]? = some lo) (hhi : width ≠ 1 → body[4]? = some hi) :
    ∃ u cap txbuf heard, besidesReader u = besidesReader (awaitsAnswer s id addr width cap txbuf heard q rest) ∧
      u.cnt = width.toNat + 6 ∧
      runSteps (width.toNat + 21) s = .next (if total body % 256 = 255 then
          ended true .none (if width = 1 then 0#8 ++ lo else hi ++ lo) { u with
            frameValid := true, lenOk := decide (length.toNat = width.toNat + 2), lasterr := status }
        else failed .checksum u) := by
  obtain ⟨hreset, hvalid, hword⟩ := hp
  have hdepth : width.toNat + 6 ≤ s.cfg.capDepth := by
    obtain ⟨hmin, -⟩ := hlegal
    rcases hr.2 with rfl | rfl <;> exact hmin.trans' (by decide)
  have hbudget : 0 < s.cfg.waitBudget := hlegal.2.2.1
  obtain ⟨cap, txbuf, heard, h1⟩ := runSteps_sendsRequest (rest := cycles (arrive ++ [r0, r1]) ++ rest) hlegal hs hr
    (by rw [h]; simp [cycles]) ⟨noReset_of_subset hreset (by grind), hvalid, hword⟩ hlen hready hq
  obtain ⟨t, h2, hcheck, ht⟩ := runSteps_takesFrame
    (s := awaitsAnswer s id addr width cap txbuf heard q (cycles (arrive ++ [r0, r1]) ++ rest)) (m0 := s.asm) (q := r0)
    (rest := cycles [r1] ++ rest) ⟨rfl, rfl, stored_nil _ _, rfl, Nat.succ_pos _, hdepth⟩ rfl rfl rfl rfl hbudget
    (by simp [awaitsAnswer, cycles]) (noReset_of_subset hreset (by grind)) hv hr0 hframe (congrArg (· + 2) hbody) (by omega) hid
  have hexpect : t.expect = width.toNat + 6 := expect_eq_of_besidesReader ht.others
  have hcur : t.cur = wordOf (.getReg id addr width) := (congrArg State.cur ht.others :)
  have hcap : t.expect ≤ t.cfg.capDepth := by
    rw [hexpect, cfg_eq_of_besidesReader ht.others]
    exact hdepth
  have hbody' : body.length = t.expect - 2 := by omega
  have hfield : fieldDataLo t.cur = width := hcur ▸ fieldDataLo_getReg id addr width
  have hasm := stored_drop_two ht.window
  obtain ⟨_, hw⟩ := frameWord_of_frameOf (p := s.cfg) (i := .getReg id addr width) (List.cons_ne_nil _ _) hr
  have h3 := step_checkAnswer (rest := rest) hcheck ht.trace (hreset r1 (by simp)) hr1 hcap hexpect hbody' hasm
    (hcur ▸ hw.getReg_iff.2 rfl) hlength hstatus (registerValue_of_window hcap hbody' hasm hlo (hfield.symm ▸ hhi))
  rw [hfield] at h3
  refine ⟨{ t with inputs := rest, pins := r1, clock := t.clock + 1 }, cap, txbuf, heard, ht.others,
    ht.count.trans (by simp [hbody]), ?_⟩
  have hsteps : width.toNat + 21 = 13 + (width.toNat + 6 + 1 + 1) := by omega
  rw [hsteps, runSteps_add h1, runSteps_add (j := width.toNat + 6 + 1) h2, runSteps_one h3]

end Sys2Proof.Machine

section
open Sys2Proof Machine Safety Words

/-- Settles O42: the request, then the answer into the window while it arrives, then its `CHECK`. -/
theorem getRegExchange : Obligations.GetRegExchange := by
  intro s id addr width rid length status lo hi chk p0 q r0 r1 send arrive rest hlegal hs hr hrid hin hp hlen hready
    hq hr0 hr1 harrive hdata
  obtain ⟨body, hb⟩ : ∃ body, body = [rid, length, status, lo] ++ (if width = 1 then [chk] else [hi, chk]) := ⟨_, rfl⟩
  have hbody : body.length = width.toNat + 4 := by rcases hr.2 with rfl | rfl <;> simp [hb]
  obtain ⟨u, _, _, _, hu, hcnt, hrun⟩ := runSteps_getRegAnswered (body := body) (length := length) (status := status) (lo := lo)
    (hi := hi) hlegal hs hr hin hp hlen hready hq hr0 hr1 harrive (by rw [hdata, hb]; rfl) hbody (by simpa [hb] using hrid)
    (by rw [hb]; rfl) (by rw [hb]; rfl) (by rw [hb]; rfl) (fun hw => by rw [hb, if_neg hw]; rfl)
  have hlog : u.txlog = s.txlog ++ request8 id s.cfg.instRead addr width := (congrArg State.txlog hu :)
  have hdir : u.dir = .receive := (congrArg State.dir hu :)
  have htx : u.txEn = false := (congrArg State.txEn hu :)
  have hrx : u.rxEn = true := (congrArg State.rxEn hu :)
  have hbaud : u.baud = s.baud := (congrArg State.baud hu :)
  rw [← hb]
  by_cases hsum : total body % 256 = 255
  · rw [if_pos hsum] at hrun
    exact ⟨_, hrun, hlog, hdir, htx, hrx, hbaud, hcnt, rfl, rfl, fun _ => ⟨rfl, rfl, rfl, rfl, rfl, rfl⟩, fun h => absurd hsum h⟩
  · rw [if_neg hsum] at hrun
    exact ⟨_, hrun, hlog, hdir, htx, hrx, hbaud, hcnt, rfl, rfl, fun h => absurd h hsum, fun _ => ⟨rfl, rfl, rfl,
      (congrArg State.lasterr hu :), (congrArg State.frameValid hu :), (congrArg State.lenOk hu :)⟩⟩

end
end

section
/-! PROOFS. The wait counter (spec/43_framer.md R116, R120, R171, R177): what each phase does to `WAITC`, and the cycle in which a byte
arrives just too late for the poll that finds the budget spent. -/

namespace Sys2Proof.Machine

variable {s t : State}

/-- In `READ` a consumed byte sets `WAITC` to 0, an empty poll within the budget counts it up, and a failure keeps it (R116). -/
theorem engineStep_read_waitc (hs : s.ph = .read) (h : engineStep s = .next t) : t.waitc = s.waitc ∨
    (t.waitc = 0 ∧ s.rd < s.wr ∧ t.rd = s.rd + 1) ∨
    (t.waitc = s.waitc + 1 ∧ s.wr ≤ s.rd ∧ s.ovf = false ∧ s.waitc ≠ s.cfg.waitBudget) := by
  rw [engineStep_read hs] at h
  rcases readStep_eq_next.1 h with ⟨hr, b, _, hc⟩ | ⟨_, _, rfl⟩ | ⟨_, _, _, rfl⟩ | ⟨hr, ho, hw, rfl⟩
  · rcases classify_cases hc with rfl | ⟨_, _, _, ⟨_, rfl⟩ | ⟨_, rfl⟩⟩ <;> exact .inr (.inl ⟨rfl, hr, rfl⟩)
  · exact .inl rfl
  · exact .inl rfl
  · exact .inr (.inr ⟨rfl, Nat.le_of_not_lt hr, ho, hw⟩)

/-- Outside `READ` only the two starts of the reader write `WAITC` (R114, R115, R149). -/
theorem EngineMove.waitc_of_not_read (h : EngineMove s t) (hs : s.ph ≠ .read) : t.waitc = s.waitc ∨
    (t.waitc = 0 ∧ t.ph = .read ∧ t.cnt = 0 ∧ (s.ph = .idle ∨ s.ph = .swrxB)) := by
  cases h with
  | accept hp _ ha =>
    cases ha with
    | read => exact .inr ⟨rfl, rfl, rfl, .inl hp⟩
    | _ => exact .inl rfl
  | startRead hp => exact .inr ⟨rfl, rfl, rfl, .inr hp⟩
  | skip hp | storeMore hp | storeLast hp | poll hp => exact absurd hp hs
  | _ => exact .inl rfl

end Sys2Proof.Machine

section
open Sys2Proof Machine Safety Words

/-- Settles O18: the poll fails before the receive step of its cycle, which then stores the byte. -/
theorem lateByteDoesNotRescueTheRead : Obligations.LateByteDoesNotRescueTheRead := by
  intro s p rest h hp hv hs hr ho hw hrx hroom
  refine ⟨_, stored_write s.cap s.wr p.rxData, ?_⟩
  rw [step_cycle h hp, engineStep_timeout (by exact hs) (by exact hr.ge) (by exact ho) (by exact hw), andThen_next, hv,
    rxStep_room (by exact hrx) (by exact hroom)]
  rfl

/-- Settles O32: bytes that arrive do not touch `WAITC`, a reset sets it to 0, and the engine writes it in `READ` and where the reader
starts. -/
theorem waitCounterCountsEmptyPolls : Obligations.WaitCounterCountsEmptyPolls := by
  intro s t h hne
  rcases step_eq_next.1 h with ⟨l, _, rfl⟩ | ⟨p, he, hp, rfl⟩ | ⟨p, u, _, _, hu, rfl⟩
  · exact absurd (by simp) hne
  · exact .inl ⟨rfl, p, he, hp⟩
  · rw [rxStep_waitc] at hne
    simp only [rxStep_waitc, rxStep_ph, rxStep_cnt, rxStep_rd]
    by_cases hs : s.ph = .read
    · rcases engineStep_read_waitc (by exact hs) hu with hw | ⟨hw, hr, hrd⟩ | ⟨hw, hpoll⟩
      · exact absurd hw hne
      · exact .inr (.inr (.inl ⟨hw, hs, hr, hrd⟩))
      · exact .inr (.inr (.inr ⟨hw, hs, hpoll⟩))
    · exact .inr (.inl (((engineMove_of_engineStep hu).waitc_of_not_read hs).resolve_left hne))

end
end
